-- ==== Sys2Proof/Word.lean ====
section
/-! DEFINITION. The two widths of the block: bytes and 16-bit words (spec 00_scope.md R6 end, R7). -/

namespace Sys2Proof

/-- A byte: 8 bits, always read as an unsigned integer 0 to 255 (00_scope.md R7). -/
abbrev Byte := BitVec 8

/-- A 16-bit value: the `CRC` register and the entries of `CRC_TABLE` (00_scope.md R6). -/
abbrev Word := BitVec 16

end Sys2Proof
end

