-- ==== Sys2Proof/Config.lean ====
section
/-! DEFINITION. What an implementation fixes and the spec leaves open (spec 00_scope.md R6): the parameters the
operations use, and the open values as opaque constants without a body. The values R6 calls "fixed" are in
Machine/Constants.lean. -/

namespace Sys2Proof

/-- `CRC_TABLE`: a total function from 0..255 to 16-bit values (40_crc.md R56), as 256 entries. -/
abbrev CrcTable := Vector Word 256

/-- The parameters of 00_scope.md R6 that the operations use. They are fixed for the machine; State carries them (log 1),
so that a statement about every state is a statement about every setting of them. -/
structure Params where
  /-- `CRC_TABLE` (R56). -/
  crcTable : CrcTable
  /-- `ESC_UNIFORM` (41_escape.md R66): are all payload bytes of the two builders escape-checked, or the heartbeat only. -/
  escUniform : Bool
  /-- `ESC_CRC` (41_escape.md R66): are the two checksum bytes escape-checked. -/
  escCrc : Bool
  deriving DecidableEq, Repr

/-- One answer of the transport's oracle `TX_FAULT` to a `BusWrite` (20_memory.md R25): all bytes taken, or the transport
stops after `k` bytes. -/
inductive TxAnswer where
  | ok
  | fault (k : Nat)
  deriving DecidableEq, Repr, Inhabited

/-- The bytes of the five wattage classes (30_encoding.md R49): operands of a host's requests, never looked at by the block. -/
structure Profiles where
  /-- `PROFILE_NONE` -/
  none : Byte
  /-- `PROFILE_1800W` -/
  w1800 : Byte
  /-- `PROFILE_2500W` -/
  w2500 : Byte
  /-- `PROFILE_3200W` -/
  w3200 : Byte
  /-- `PROFILE_3700W` -/
  w3700 : Byte
  deriving DecidableEq, Repr, Inhabited

namespace Config

/-- OPEN `CRC_TABLE` (40_crc.md R56, 92 D1): the spec gives no entry, so the constant has no body (log 2). -/
opaque crcTable : CrcTable

/-- OPEN `TX_FAULT` (20_memory.md R25, 92 D13): the answer to the `n`-th `BusWrite`; no body (log 4). -/
opaque txFault : Nat → TxAnswer

/-- OPEN `PROFILE_*` (30_encoding.md R49, 92 D12); no body (log 22). -/
opaque profiles : Profiles

/-- OPEN `HB_INIT` (00_scope.md R6, 92 D24): the heartbeat of the start-up frames; no body (log 22). -/
opaque hbInit : Byte

end Config

end Sys2Proof
end

