-- ==== Sys2Proof/Machine/Constants.lean ====
section
/-! DEFINITION. The hardwired constants (spec 10_state.md R14, 00_scope.md R6) and the decided settings of the two escape
parameters. -/

namespace Sys2Proof.Machine

/-- `CRC_SEED` (R14). -/
def crcSeed : Word := 0xE300

/-- `ESC`, the escape marker (R14). -/
def escByte : Byte := 0xE0

/-- `ACK`, the acknowledgment marker (R14). -/
def ackByte : Byte := 0xE1

/-- `SOF`, the start-of-frame marker (R14). -/
def sofByte : Byte := 0xE2

/-- `EOF`, the end-of-frame marker (R14). -/
def eofByte : Byte := 0xE3

/-- `SRC_ADDR`, the block's own bus address (R14, 92 D27). -/
def srcAddr : Byte := 0x87

/-- `ADDR_GEN1` to `ADDR_GEN3`, the generator boards' bus addresses (00_scope.md R6). -/
def boardAddrs : List Byte := [0x88, 0x89, 0x8A]

/-- `CMD_SET_BOARD_CONFIG` (R14). -/
def cmdSetBoardConfig : Byte := 0x26

/-- `LEN_SET_BOARD_CONFIG` (R14, 30_encoding.md R46). -/
def lenSetBoardConfig : Byte := 0x0A

/-- `CMD_SET_PWR_LEVELS` (R14). -/
def cmdSetPwrLevels : Byte := 0x28

/-- `LEN_SET_PWR_LEVELS` (R14, 30_encoding.md R46). -/
def lenSetPwrLevels : Byte := 0x0B

/-- `LEVEL_MAX` (R14). -/
def levelMax : Byte := 19

/-- The setting of `ESC_UNIFORM` the spec decides (00_scope.md R6, 92 D6; log 3). -/
def escUniformDecided : Bool := true

/-- The setting of `ESC_CRC` the spec decides (00_scope.md R6, 92 D7; log 3). -/
def escCrcDecided : Bool := false

end Sys2Proof.Machine
end

