-- ==== Sys2Proof/Machine/State.lean ====
section
/-! DEFINITION. The state of the block (spec 10_state.md R10) as plain data, the ways a step can stop, and the state after
reset (10_state.md R21). -/

namespace Sys2Proof.Machine

/-- The five items of 10_state.md R10, the request stream the block reads, and three fields of the model's own. -/
structure State where
  /-- `CRC`, the checksum accumulator and result (R11). -/
  crc : Word
  /-- `ESCF`, the result of the last ESCQ (R12). -/
  escf : Bool
  /-- `STATUS`, the result code of the last request (R13). -/
  status : Byte
  /-- `rp`, the position in `rq` of the next request's first byte (R17). -/
  rp : Nat
  /-- `TX`, every byte handed to the bus transport since reset, in order (R10, R18). -/
  tx : List Byte
  /-- `RQ`, the request stream: an input that only the host extends (R10, 20_memory.md R23; log 11). -/
  rq : List Byte
  /-- The model's own: the parameters `CRC_TABLE`, `ESC_UNIFORM` and `ESC_CRC`; no step writes them (log 1). -/
  params : Params
  /-- The model's own: the answers of `TX_FAULT` already fixed, oldest first (20_memory.md R25; log 4). -/
  txScript : List TxAnswer
  /-- The model's own: how many `BusWrite` calls were made, the index of the open oracle `Config.txFault` (log 4). -/
  busWrites : Nat
  deriving DecidableEq, Repr

/-- The ways a step can end in a fault: none. The spec's errors are result codes in `STATUS` after which the block goes on
(60_exceptions.md R93, R94), and an incomplete request "is a stuck state, not a fault" (30_encoding.md R43). -/
inductive Fault where
  deriving DecidableEq, Repr

/-- The ways a step can be refused. -/
inductive Refusal where
  /-- Raised by `exec` for an instruction the model gives no meaning yet; safe. No arm of `exec` uses it. -/
  | notModelled (mnemonic : String)
  deriving DecidableEq, Repr

/-- What a step or a meaning answers. -/
abbrev Result := Host.Outcome State Fault Refusal

/-- The parameters of the machine: the open table, and the settings the spec decides (00_scope.md R6; log 2, 3). -/
def defaultParams : Params :=
  { crcTable := Config.crcTable, escUniform := escUniformDecided, escCrc := escCrcDecided }

/-- The state right after reset (10_state.md R21). The spec states the first six fields; the last three are the model's
own (log 2, 3, 7). -/
def State.reset : State :=
  { crc := crcSeed
    escf := false
    status := 0x00
    rp := 0
    tx := []
    rq := []
    params := defaultParams
    txScript := []
    busWrites := 0 }

end Sys2Proof.Machine
end

