-- ==== Sys2Proof/Machine/Flags.lean ====
section
/-! DEFINITION. The block's one condition flag and its result codes: what `ESCF` is computed from (spec 41_escape.md R63,
R65) and what `STATUS` is written with (60_exceptions.md R85). -/

namespace Sys2Proof.Machine

/-- The classifier: is the byte one of the four control codes (41_escape.md R63). -/
def needsEscape (b : Byte) : Bool := b == escByte || b == ackByte || b == sofByte || b == eofByte

/-- How a request ends (60_exceptions.md R85). -/
inductive ResultCode where
  | ok | outOfRange | transmitFault | illegalRequest
  deriving DecidableEq, Repr

/-- The code written to `STATUS` (R85, 10_state.md R13). -/
def ResultCode.code : ResultCode → Byte
  | .ok => 0x00
  | .outOfRange => 0x01
  | .transmitFault => 0x02
  | .illegalRequest => 0x03

/-- The result code of a frame operation, from the transport's answer (42_frame.md R71). -/
def busCode : TxAnswer → ResultCode
  | .ok => .ok
  | .fault _ => .transmitFault

end Sys2Proof.Machine
end

