-- ==== Sys2Proof/Machine/Operands.lean ====
section
/-! DEFINITION. Operand forms: byte halves of a word and their order on the wire, the level range, and the sets of payload
indices that each operation submits to the escape check. -/

namespace Sys2Proof.Machine

/-- `lo8(v) = v[7:0]` (00_scope.md R7). -/
def lo8 (v : Word) : Byte := v.extractLsb' 0 8

/-- `hi8(v) = v[15:8]` (00_scope.md R7). -/
def hi8 (v : Word) : Byte := v.extractLsb' 8 8

/-- `zext_16(b)` (00_scope.md R7). -/
def zext16 (b : Byte) : Word := b.setWidth 16

/-- The checksum's bytes in the order of the wire, low byte first (20_memory.md R26; 90 C4). -/
def crcBytes (c : Word) : List Byte := [lo8 c, hi8 c]

/-- `in_range(l) = (l <= 19)`, unsigned (43_commands.md R77). -/
def inRange (l : Byte) : Bool := decide (l ≤ levelMax)

/-- The payload indices FRAME checks: all, under both settings of `ESC_UNIFORM` (42_frame.md R71). -/
def frameChk (n : Nat) : List Nat := List.range n

/-- The payload indices CFGBRD checks (43_commands.md R76). -/
def cfgbrdChk (escUniform : Bool) : List Nat := if escUniform then [0, 1] else []

/-- The payload indices SETPWR checks (43_commands.md R78). -/
def setpwrChk (escUniform : Bool) : List Nat := if escUniform then [0, 1, 2] else [2]

end Sys2Proof.Machine
end

