-- ==== Sys2Proof/Machine/Ops.lean ====
section
/-! DEFINITION. The shared operations on the state: the two stream primitives `MemRead` and `BusWrite` (spec 00_scope.md
R8; 20_memory.md R23, R25), the register writes, and the end of a request, with `raise` (60_exceptions.md R93). There is no
return from an error (R94). -/

namespace Sys2Proof.Machine

/-- The bytes of `RQ` from `rp` on, the only ones the block reads (20_memory.md R23). -/
def State.pending (s : State) : List Byte := s.rq.drop s.rp

/-- `MemRead(a, n)`: the bytes `RQ[a .. a+n)`, defined only when they are all there (20_memory.md R23). -/
def State.memRead (s : State) (a n : Nat) : Option (List Byte) :=
  if a + n ≤ s.rq.length then some ((s.rq.drop a).take n) else none

/-- `CRC <- v`. -/
def State.setCrc (v : Word) (s : State) : State := { s with crc := v }

/-- `ESCF <- v`. -/
def State.setEscf (v : Bool) (s : State) : State := { s with escf := v }

/-- The end of a request: `STATUS <- code`, `rp <- rp + L` (60_exceptions.md R85; 10_state.md R17). -/
def State.endRequest (r : ResultCode) (len : Nat) (s : State) : State :=
  { s with status := r.code, rp := s.rp + len }

/-- `raise E` (60_exceptions.md R93): `STATUS <- code(E)`, `rp <- rp + L`, every other item as it is. Control goes
nowhere: the block is ready for the next request. -/
def State.raise (e : ResultCode) (len : Nat) (s : State) : State := s.endRequest e len

/-- The next answer of the oracle `TX_FAULT`: the oldest one already fixed, else the open oracle's own (20_memory.md R25;
log 4). -/
def State.oracleAnswer (s : State) : TxAnswer :=
  match s.txScript with
  | [] => Config.txFault s.busWrites
  | a :: _ => a

/-- An answer as `BusWrite` of `n` bytes returns it: `Fault(k)` has `0 <= k < n` (20_memory.md R25); a transport that would
stop only after `k >= n` bytes takes them all (log 5). -/
def boundAnswer (n : Nat) : TxAnswer → TxAnswer
  | .ok => .ok
  | .fault k => if k < n then .fault k else .ok

/-- What `BusWrite(w)` returns in a state (20_memory.md R25). -/
def State.busAnswer (w : List Byte) (s : State) : TxAnswer := boundAnswer w.length s.oracleAnswer

/-- The bytes that reach the transport: all, or the first `k` (20_memory.md R25). -/
def bytesSent (w : List Byte) : TxAnswer → List Byte
  | .ok => w
  | .fault k => w.take k

/-- `BusWrite(w)`: hands the bytes to the transport in index order; nothing is resent or completed after a fault
(20_memory.md R25). One answer of the oracle is used up (log 4). -/
def State.busWrite (w : List Byte) (s : State) : State :=
  { s with
    tx := s.tx ++ bytesSent w (s.busAnswer w)
    txScript := s.txScript.tail
    busWrites := s.busWrites + 1 }

end Sys2Proof.Machine
end

