-- ==== Sys2Proof/Machine/Crc.lean ====
section
/-! DEFINITION. The Checksum Engine (spec 40_crc.md): the byte step, the checksum of a sequence, and the meanings of
CRCINIT, CRCUPD and CRC16. -/

namespace Sys2Proof.Machine

/-- `T[i]`, entry `i` of `CRC_TABLE`; every byte is an index (40_crc.md R54, R56). -/
def tableEntry (T : CrcTable) (i : Byte) : Word := T[i.toNat]'(i.isLt)

/-- The byte step `crc_step(c, b) = (c >> 8) ^ T[(c ^ zext_16(b))[7:0]]` (40_crc.md R54). -/
def crcStep (T : CrcTable) (c : Word) (b : Byte) : Word := (c >>> 8) ^^^ tableEntry T (lo8 (c ^^^ zext16 b))

/-- The checksum of a byte sequence: bytes in index order from the seed, no final step (40_crc.md R55). -/
def checksum (T : CrcTable) (bytes : List Byte) : Word := bytes.foldl (crcStep T) crcSeed

/-- CRCINIT loads the seed (40_crc.md R58). -/
def execCrcinit (s : State) : Result := .next ((s.setCrc crcSeed).endRequest .ok 1)

/-- CRCUPD absorbs one byte (40_crc.md R59). -/
def execCrcupd (b : Byte) (s : State) : Result :=
  .next ((s.setCrc (crcStep s.params.crcTable s.crc b)).endRequest .ok 2)

/-- CRC16 computes the checksum of its data; the previous value of `CRC` is ignored (40_crc.md R60). -/
def execCrc16 (d : List Byte) (s : State) : Result :=
  .next ((s.setCrc (checksum s.params.crcTable d)).endRequest .ok (2 + d.length))

end Sys2Proof.Machine
end

