-- ==== Sys2Proof/Machine/Escape.lean ====
section
/-! DEFINITION. The escape encoder and the meaning of ESCQ (spec 41_escape.md). The classifier is in Machine/Flags.lean. -/

namespace Sys2Proof.Machine

/-- `esc_encode(b)`: a control code is preceded by ESC and itself unchanged (41_escape.md R64). -/
def escEncode (b : Byte) : List Byte := if needsEscape b then [escByte, b] else [b]

/-- `esc_encode_all(s)`: the concatenation in index order (41_escape.md R64). -/
def escEncodeAll (bytes : List Byte) : List Byte := bytes.flatMap escEncode

/-- ESCQ runs the classifier on one byte (41_escape.md R65). -/
def execEscq (b : Byte) (s : State) : Result := .next ((s.setEscf (needsEscape b)).endRequest .ok 2)

end Sys2Proof.Machine
end

