-- ==== Sys2Proof/Machine/Frame.lean ====
section
/-! DEFINITION. The Frame Builder (spec 42_frame.md): the logical frame, its checksum, the wire frame, the one operation
that builds and transmits a frame, and the meaning of FRAME. -/

namespace Sys2Proof.Machine

/-- The logical frame (42_frame.md R68, 30_encoding.md R44). -/
def frameLogical (dest len cmd : Byte) (p : List Byte) : List Byte := [sofByte, dest, len, srcAddr, cmd] ++ p

/-- The checksum over the whole logical frame, SOF included, before any escape marker (42_frame.md R69; log 16). -/
def frameCrc (T : CrcTable) (dest len cmd : Byte) (p : List Byte) : Word := checksum T (frameLogical dest len cmd p)

/-- The payload on the wire: the bytes whose index is in `chk` pass the encoder, the others go raw (42_frame.md R70). -/
def wireBody (chk : List Nat) (p : List Byte) : List Byte :=
  p.zipIdx.flatMap fun x => if x.2 ∈ chk then escEncode x.1 else [x.1]

/-- The checksum bytes on the wire, raw or passed through the encoder (42_frame.md R70, `ESC_CRC`). -/
def wireCrc (escCrc : Bool) (c : Word) : List Byte := if escCrc then escEncodeAll (crcBytes c) else crcBytes c

/-- The wire frame (42_frame.md R70): five header bytes always raw, body, checksum, EOF, ACK. -/
def frameWire (T : CrcTable) (escCrc : Bool) (dest len cmd : Byte) (p : List Byte) (chk : List Nat) : List Byte :=
  [sofByte, dest, len, srcAddr, cmd] ++ wireBody chk p ++ wireCrc escCrc (frameCrc T dest len cmd p) ++ [eofByte, ackByte]

/-- Builds a frame, leaves its checksum in `CRC`, hands it to the transport as one `BusWrite` and ends the request with the
transport's answer (42_frame.md R71; also 43_commands.md R76, R78). `size` is the request's length. -/
def State.sendFrame (dest len cmd : Byte) (p : List Byte) (chk : List Nat) (size : Nat) (s : State) : State :=
  let w := frameWire s.params.crcTable s.params.escCrc dest len cmd p chk
  (((s.setCrc (frameCrc s.params.crcTable dest len cmd p)).busWrite w).endRequest (busCode (s.busAnswer w)) size)

/-- FRAME transmits a frame with any header operands and any payload; every payload byte is checked (42_frame.md R71). -/
def execFrame (dest len cmd : Byte) (d : List Byte) (s : State) : Result :=
  .next (s.sendFrame dest len cmd d (frameChk d.length) (5 + d.length))

end Sys2Proof.Machine
end

