-- ==== Sys2Proof/Machine/Commands.lean ====
section
/-! DEFINITION. The Board Command Encoder (spec 43_commands.md): the meanings of CFGBRD and SETPWR. -/

namespace Sys2Proof.Machine

/-- CFGBRD transmits a `SET_BOARD_CONFIG` frame; neither the address nor the profile bytes are validated (43_commands.md
R76, R80, R81). -/
def execCfgbrd (addr p1 p2 : Byte) (s : State) : Result :=
  .next (s.sendFrame addr lenSetBoardConfig cmdSetBoardConfig [p1, p2] (cfgbrdChk s.params.escUniform) 4)

/-- SETPWR raises `OutOfRange` when both levels are out of range; otherwise it transmits a `SET_PWR_LEVELS` frame with the
levels as given (43_commands.md R78, R79, R82, R84). -/
def execSetpwr (addr l1 l2 hb : Byte) (s : State) : Result :=
  .next
    (if !inRange l1 && !inRange l2 then
      s.raise .outOfRange 5
    else
      s.sendFrame addr lenSetPwrLevels cmdSetPwrLevels [l1, l2, hb] (setpwrChk s.params.escUniform) 5)

end Sys2Proof.Machine
end

