-- ==== Sys2Proof/Syntax.lean ====
section
/-! DEFINITION. The seven operations (spec 30_encoding.md R41) with their operands as fields (R39), one constructor per
row of spec/opcode_table.json. -/

namespace Sys2Proof

/-- A request of the block. Every operand is one byte; the count byte `n` of CRC16 and FRAME is the length of the data. -/
inductive Instr where
  /-- `CRC16 [d0, d1, ...]` (40_crc.md R60) -/
  | crc16 (d : List Byte)
  /-- `CRCINIT` (40_crc.md R58) -/
  | crcinit
  /-- `CRCUPD b` (40_crc.md R59) -/
  | crcupd (b : Byte)
  /-- `ESCQ b` (41_escape.md R65) -/
  | escq (b : Byte)
  /-- `FRAME dest, len, cmd, [d0, d1, ...]` (42_frame.md R71) -/
  | frame (dest len cmd : Byte) (d : List Byte)
  /-- `CFGBRD addr, p1, p2` (43_commands.md R76) -/
  | cfgbrd (addr p1 p2 : Byte)
  /-- `SETPWR addr, l1, l2, hb` (43_commands.md R78) -/
  | setpwr (addr l1 l2 hb : Byte)
  deriving DecidableEq, Repr

end Sys2Proof
end

