-- ==== Sys2Proof/Machine/Dispatch.lean ====
section
/-! DEFINITION. One arm per instruction, each a direct call of its meaning. -/

namespace Sys2Proof.Machine

def exec (i : Instr) (s : State) : Host.Outcome State Fault Refusal :=
  match i with
  | .crc16 d => Sys2Proof.Machine.execCrc16 d s
  | .crcinit => Sys2Proof.Machine.execCrcinit s
  | .crcupd b => Sys2Proof.Machine.execCrcupd b s
  | .escq b => Sys2Proof.Machine.execEscq b s
  | .frame dest len cmd d => Sys2Proof.Machine.execFrame dest len cmd d s
  | .cfgbrd addr p1 p2 => Sys2Proof.Machine.execCfgbrd addr p1 p2 s
  | .setpwr addr l1 l2 hb => Sys2Proof.Machine.execSetpwr addr l1 l2 hb s

end Sys2Proof.Machine
end

