-- ==== Sys2Proof/WellFormed.lean ====
section
/-! DEFINITION. Which terms of `Instr` are requests: those whose data count fits the count byte (spec 30_encoding.md R39,
R40; 92 D25). -/

namespace Sys2Proof

/-- `NMAX`, the largest count byte of formats V and F (00_scope.md R6). -/
def nmax : Nat := 255

/-- A data sequence whose length the one count byte can hold (R40). -/
def countFits (d : List Byte) : Bool := decide (d.length ≤ nmax)

/-- Only the two counted formats can be ill formed: every value of every operand byte is legal (R39). -/
def Instr.wellFormed : Instr → Bool
  | .crc16 d => countFits d
  | .crcinit => true
  | .crcupd _ => true
  | .escq _ => true
  | .frame _ _ _ d => countFits d
  | .cfgbrd _ _ _ => true
  | .setpwr _ _ _ _ => true

end Sys2Proof
end

