-- ==== Sys2Proof/Decode.lean ====
section
/-! DEFINITION. Requests as bytes (spec 30_encoding.md R38 to R43): the decoder, total on any bytes and rejecting by name,
then the encoder, then the opcode table's own numbering of a request's bits. -/

namespace Sys2Proof

/-- The seven operations without their operands (R41). -/
inductive Op where
  | crc16 | crcinit | crcupd | escq | frame | cfgbrd | setpwr
  deriving DecidableEq, Repr

/-- The op byte (R41). -/
def Op.byte : Op → Byte
  | .crc16 => 0x01
  | .crcinit => 0x02
  | .crcupd => 0x03
  | .escq => 0x04
  | .frame => 0x05
  | .cfgbrd => 0x26
  | .setpwr => 0x28

/-- The rows of the op map, in the table's order (R41). -/
def Op.all : List Op := [.crc16, .crcinit, .crcupd, .escq, .frame, .cfgbrd, .setpwr]

/-- The operation an op byte selects. "Match is on the whole op byte (mask 0xFF)" (R41). -/
def Op.ofByte (b : Byte) : Option Op := Op.all.find? fun o => o.byte == b

/-- What the decoder reads at the front of a byte stream. -/
inductive Decoded where
  /-- A whole request, and the bytes after it. -/
  | request (i : Instr) (rest : List Byte)
  /-- The op byte is none of the seven (R42). -/
  | illegalOp (op : Byte)
  /-- Fewer bytes than the request needs (R43). -/
  | incomplete
  /-- No byte at all: the stream is used up (70_reset_and_hazards.md R120). -/
  | noRequest
  deriving DecidableEq, Repr

/-- The first `n` bytes and the rest, or nothing where fewer than `n` are there. -/
def takeBytes : Nat → List Byte → Option (List Byte × List Byte)
  | 0, bs => some ([], bs)
  | _ + 1, [] => none
  | n + 1, b :: bs =>
    match takeBytes n bs with
    | some (d, rest) => some (b :: d, rest)
    | none => none

/-- The data of formats V and F: the count byte and as many data bytes as it says (R38, R40). -/
def readCounted : List Byte → Option (List Byte × List Byte)
  | [] => none
  | n :: bs => takeBytes n.toNat bs

/-- A request from what was read of it, or `incomplete`. -/
def requestOr (f : List Byte → Instr) : Option (List Byte × List Byte) → Decoded
  | some (d, rest) => .request (f d) rest
  | none => .incomplete

/-- The operands of an operation, each the byte as it stands, in request order (R39, R40). -/
def decodeOperands : Op → List Byte → Decoded
  | .crc16, bs => requestOr .crc16 (readCounted bs)
  | .crcinit, bs => .request .crcinit bs
  | .crcupd, b :: bs => .request (.crcupd b) bs
  | .escq, b :: bs => .request (.escq b) bs
  | .frame, dest :: len :: cmd :: bs => requestOr (.frame dest len cmd) (readCounted bs)
  | .cfgbrd, addr :: p1 :: p2 :: bs => .request (.cfgbrd addr p1 p2) bs
  | .setpwr, addr :: l1 :: l2 :: hb :: bs => .request (.setpwr addr l1 l2 hb) bs
  | _, _ => .incomplete

/-- The decoder: the op byte selects the operation and the format, and so the length (R38). -/
def decode : List Byte → Decoded
  | [] => .noRequest
  | op :: bs =>
    match Op.ofByte op with
    | some o => decodeOperands o bs
    | none => .illegalOp op

/-- The operation of a request. -/
def Instr.op : Instr → Op
  | .crc16 _ => .crc16
  | .crcinit => .crcinit
  | .crcupd _ => .crcupd
  | .escq _ => .escq
  | .frame _ _ _ _ => .frame
  | .cfgbrd _ _ _ => .cfgbrd
  | .setpwr _ _ _ _ => .setpwr

/-- Count byte and data, as formats V and F lay them out (R38). -/
def encodeCounted (d : List Byte) : List Byte := BitVec.ofNat 8 d.length :: d

/-- The operand bytes after the op byte (R39). -/
def encodeOperands : Instr → List Byte
  | .crc16 d => encodeCounted d
  | .crcinit => []
  | .crcupd b => [b]
  | .escq b => [b]
  | .frame dest len cmd d => [dest, len, cmd] ++ encodeCounted d
  | .cfgbrd addr p1 p2 => [addr, p1, p2]
  | .setpwr addr l1 l2 hb => [addr, l1, l2, hb]

/-- The encoder: a request's bytes (R38, R39, R41). -/
def encode (i : Instr) : List Byte := i.op.byte :: encodeOperands i

/-- The length `L` of a request in bytes (R38). -/
def Instr.size : Instr → Nat
  | .crc16 d => 2 + d.length
  | .crcinit => 1
  | .crcupd _ => 2
  | .escq _ => 2
  | .frame _ _ _ d => 5 + d.length
  | .cfgbrd _ _ _ => 4
  | .setpwr _ _ _ _ => 5

/-- `n` bytes of a number, least significant first: the opcode table numbers bit 0 as the least significant bit of the
first byte (log 13). -/
def lowBytes : Nat → Nat → List Byte
  | 0, _ => []
  | n + 1, w => BitVec.ofNat 8 w :: lowBytes n (w / 256)

/-- The bytes of a table word: those the table gives, then zeros up to the longest request, `NMAX + 5` bytes
(20_memory.md R29; log 13). -/
def tableBytes (nbits w : Nat) : List Byte :=
  lowBytes ((nbits + 7) / 8) (w % 2 ^ nbits) ++ List.replicate (nmax + 5) 0

/-- The instruction the decoder reads from an instruction numbered as spec/opcode_table.json numbers it. -/
def decodeTableWord (nbits w : Nat) : Option Instr :=
  match decode (tableBytes nbits w) with
  | .request i _ => some i
  | .illegalOp _ => none
  | .incomplete => none
  | .noRequest => none

end Sys2Proof
end

