-- ==== Sys2Proof/Machine/Fetch.lean ====
section
/-! DEFINITION. Fetching a request from the stream and what the decoder itself does: an illegal op byte (spec
60_exceptions.md R88) and waiting for bytes (60_exceptions.md R89). -/

namespace Sys2Proof.Machine

/-- What the decoder reads at `rp` (30_encoding.md R38). -/
def State.fetch (s : State) : Decoded := decode s.pending

/-- An illegal op byte is a one-byte request that raises `IllegalRequest` (30_encoding.md R42, 60_exceptions.md R88;
log 10). -/
def execIllegal (s : State) : Result := .next (s.raise .illegalRequest 1)

/-- With no whole request at `rp` the block "waits with all state unchanged" (30_encoding.md R43, 60_exceptions.md R89;
log 9). -/
def waitForBytes (s : State) : Result := .next s

/-- `RQ` with the bytes of a table word written over it from `rp` on (log 12). -/
def overwriteAt (rp : Nat) (bytes rq : List Byte) : List Byte :=
  (rq ++ List.replicate (rp - rq.length) 0).take rp ++ bytes ++ rq.drop (rp + bytes.length)

end Sys2Proof.Machine
end

