-- ==== Sys2Proof/Machine/Step.lean ====
section
/-! DEFINITION. One step: one request (spec 20_memory.md R33, 70_reset_and_hazards.md R120). -/

namespace Sys2Proof.Machine

/-- The block reads the request at `rp` and executes it, atomically (20_memory.md R33). -/
def step (s : State) : Host.Outcome State Fault Refusal :=
  match s.fetch with
  | .request i _ => exec i s
  | .illegalOp _ => execIllegal s
  | .incomplete => waitForBytes s
  | .noRequest => waitForBytes s

/-- The state with a table word's bytes in the request stream at `rp`, where the next step reads its request (log 12). -/
def State.withFetchWord (s : State) (nbits w : Nat) : State :=
  { s with rq := overwriteAt s.rp (tableBytes nbits w) s.rq }

end Sys2Proof.Machine
end

