-- ==== Sys2Proof/Machine/Env.lean ====
section
/-! DEFINITION. What the environment can do to the block (spec 00_scope.md R5): the host appends requests, reads the three
registers and asserts reset, and the transport fixes its answers. Each lands between two steps; only a reset can fall
inside a frame (70_reset_and_hazards.md R103). -/

namespace Sys2Proof.Machine

/-- The registers the host can read (10_state.md R11 to R13). -/
inductive HostReg where
  | crc | escf | status
  deriving DecidableEq, Repr

/-- A host's read of a register, zero-extended to 16 bits; it has no side effect (10_state.md R11 to R13). -/
def State.hostRead (s : State) : HostReg → Word
  | .crc => s.crc
  | .escf => if s.escf then 1 else 0
  | .status => zext16 s.status

/-- The host appends bytes to `RQ` (20_memory.md R23). -/
def State.hostAppend (bytes : List Byte) (s : State) : State := { s with rq := s.rq ++ bytes }

/-- The host asserts reset (70_reset_and_hazards.md R102). The parameters are unaffected; the oracle goes on where it was
(log 8). -/
def State.hostReset (s : State) : State :=
  { State.reset with params := s.params, txScript := s.txScript, busWrites := s.busWrites }

/-- The environment fixes one more answer of the oracle (20_memory.md R25; log 4). -/
def State.fixAnswer (a : TxAnswer) (s : State) : State := { s with txScript := s.txScript ++ [a] }

/-- The state in which the next `BusWrite` is cut off after `k` bytes. -/
def State.cutAfter (k : Nat) (s : State) : State := { s with txScript := .fault k :: s.txScript }

/-- Reset asserted while the request at `rp` has handed `k` bytes to the transport: `Fault(k)` followed by reset (93 U12;
70_reset_and_hazards.md R103). The answer is the bytes that had reached the bus, and the state after.
DESIGN CHOICE (log 18): the cut-off takes the place of the oracle's answer to this frame, so no answer of `txScript` is used
up; and where the request at `rp` calls no `BusWrite`, or there is none, the event is a plain reset and the cut-off is dropped. -/
def State.resetInFrame (k : Nat) (s : State) : List Byte × State :=
  match step (s.cutAfter k) with
  | .next t => (t.tx, { s.hostReset with busWrites := t.busWrites })
  | .fault _ => (s.tx, s.hostReset)
  | .refused _ => (s.tx, s.hostReset)

/-- What the environment does between two steps. -/
inductive EnvEvent where
  | append (bytes : List Byte)
  | reset
  | answer (a : TxAnswer)
  | resetInFrame (k : Nat)
  deriving DecidableEq, Repr

/-- The effect of an event on the state. -/
def State.afterEvent (s : State) : EnvEvent → State
  | .append bytes => s.hostAppend bytes
  | .reset => s.hostReset
  | .answer a => s.fixAnswer a
  | .resetInFrame k => (s.resetInFrame k).2

end Sys2Proof.Machine
end

