-- ==== Sys2Proof/Machine/Pseudo.lean ====
section
/-! DEFINITION. The pseudo-instructions (spec 30_encoding.md R52), each a fixed expansion, and the host's heartbeat
(43_commands.md R84). Obligations of the host, no part of the block. -/

namespace Sys2Proof.Machine

/-- What a host does: issue a request, or wait `T_IFS`, which "produces no bytes in RQ" (R52). -/
inductive HostAction where
  | request (i : Instr)
  | pause
  deriving DecidableEq, Repr

/-- `ZEROPWR addr, hb` (R52). -/
def zeroPwr (addr hb : Byte) : Instr := .setpwr addr 0 0 hb

/-- A request and the pause after it (70_reset_and_hazards.md R113). -/
def thenPause (i : Instr) : List HostAction := [.request i, .pause]

/-- `INIT4 hb`, the 4-coil start-up (R52; 70_reset_and_hazards.md R107). -/
def init4 (p : Profiles) (hb : Byte) : List HostAction :=
  thenPause (.cfgbrd 0x88 p.w2500 p.w2500) ++ thenPause (.cfgbrd 0x89 p.w3700 p.w1800)
    ++ thenPause (zeroPwr 0x88 hb) ++ thenPause (zeroPwr 0x89 hb)

/-- `INIT5 hb`, the 5-coil start-up (R52; 70_reset_and_hazards.md R108). -/
def init5 (p : Profiles) (hb : Byte) : List HostAction :=
  thenPause (.cfgbrd 0x88 p.w2500 p.w2500) ++ thenPause (.cfgbrd 0x89 p.w3700 p.none)
    ++ thenPause (.cfgbrd 0x8A p.w1800 p.w3200)
    ++ thenPause (zeroPwr 0x88 hb) ++ thenPause (zeroPwr 0x89 hb) ++ thenPause (zeroPwr 0x8A hb)

/-- The start-up the machine's own open profiles and heartbeat give, by personality (70_reset_and_hazards.md R106 to R108;
log 22). -/
def startUp (fiveCoil : Bool) : List HostAction :=
  if fiveCoil then init5 Config.profiles Config.hbInit else init4 Config.profiles Config.hbInit

/-- The bytes an action appends to `RQ` (R52). -/
def HostAction.bytes : HostAction → List Byte
  | .request i => encode i
  | .pause => []

/-- The bytes a sequence of actions appends to `RQ`, one request after the other (30_encoding.md R38). -/
def requestBytes (actions : List HostAction) : List Byte := actions.flatMap HostAction.bytes

/-- The heartbeat of the next control cycle, `(hb + 1) mod 256` (43_commands.md R84; 70_reset_and_hazards.md R111). -/
def nextHeartbeat (hb : Byte) : Byte := hb + 1

end Sys2Proof.Machine
end

