-- ==== Sys2Proof/Machine/Receiver.lean ====
section
/-! DEFINITION. The receiver's view of a wire frame (spec 41_escape.md R67): the decoder that inverts the Frame Builder,
and the decoder that scans for an unescaped EOF. No part of the block; statements about frames are made with them. -/

namespace Sys2Proof.Machine

/-- A frame as a receiver reads it. -/
structure Received where
  dest : Byte
  len : Byte
  src : Byte
  cmd : Byte
  payload : List Byte
  crc : Word
  deriving DecidableEq, Repr

/-- An item: "one byte, or, if that byte is 0xE0, the following byte taken as data" (R67). -/
def readItem : List Byte → Option (Byte × List Byte)
  | [] => none
  | b :: bs =>
    if b = escByte then
      match bs with
      | [] => none
      | d :: rest => some (d, rest)
    else some (b, bs)

/-- `n` items. -/
def readItems : Nat → List Byte → Option (List Byte × List Byte)
  | 0, bs => some ([], bs)
  | n + 1, bs =>
    match readItem bs with
    | none => none
    | some (d, rest) => (readItems n rest).map fun r => (d :: r.1, r.2)

/-- The two checksum bytes, raw or as items (R67). -/
def readCrc (escCrc : Bool) (bs : List Byte) : Option (List Byte × List Byte) :=
  if escCrc then readItems 2 bs else takeBytes 2 bs

/-- The decoder of R67 for a frame with `n` payload bytes; the second part is what follows the frame (log 21). -/
def receive (escCrc : Bool) (n : Nat) : List Byte → Option (Received × List Byte)
  | sof :: dest :: len :: src :: cmd :: bs =>
    if sof = sofByte then
      match readItems n bs with
      | none => none
      | some (payload, bs1) =>
        match readCrc escCrc bs1 with
        | some ([lo, hi], eof :: ack :: rest) =>
          if eof = eofByte ∧ ack = ackByte then
            some ({ dest := dest, len := len, src := src, cmd := cmd, payload := payload, crc := hi ++ lo }, rest)
          else none
        | _ => none
    else none
  | _ => none

/-- The payload count a receiver knows from the command: 2 for CMD 0x26, 3 for CMD 0x28 (R67, 30_encoding.md R47). -/
def payloadCount (cmd : Byte) : Option Nat :=
  if cmd = cmdSetBoardConfig then some 2 else if cmd = cmdSetPwrLevels then some 3 else none

/-- The receiver's checksum test, over the logical frame it read (42_frame.md R69). -/
def Received.crcMatches (T : CrcTable) (r : Received) : Bool :=
  checksum T ([sofByte, r.dest, r.len, r.src, r.cmd] ++ r.payload) == r.crc

/-- The other kind of decoder (R67): the data bytes up to the first unescaped EOF, and what follows that EOF. DESIGN CHOICE
(log 21): it refuses an unescaped ACK or SOF, since R67 says that it "fails on every frame whose raw CRC_LO or CRC_HI is a
control code". -/
def scanToEof : List Byte → Option (List Byte × List Byte)
  | [] => none
  | [b] => if b = eofByte then some ([], []) else none
  | b :: c :: rest =>
    if b = eofByte then some ([], c :: rest)
    else if b = escByte then (scanToEof rest).map fun r => (c :: r.1, r.2)
    else if needsEscape b then none
    else (scanToEof (c :: rest)).map fun r => (b :: r.1, r.2)

end Sys2Proof.Machine
end

