-- ==== Sys2Proof/Safety.lean ====
section
/-! DEFINITION. The terms of the claims: the spec's formulas written out once more, which requests do what, and what counts
as a good state and as a finished run (spec 10_state.md R13, R17; 70_reset_and_hazards.md R120). -/

namespace Sys2Proof.Literal

/-- The seven op bytes of spec 30_encoding.md R41. -/
def opBytes : List Byte := [0x01, 0x02, 0x03, 0x04, 0x05, 0x26, 0x28]

/-- The four control codes of 41_escape.md R63. -/
def controlCodes : List Byte := [0xE0, 0xE1, 0xE2, 0xE3]

/-- A data byte on the wire, as 41_escape.md R64 words it. -/
def escaped (b : Byte) : List Byte := if b ∈ controlCodes then [0xE0, b] else [b]

/-- The checksum by D0's own update, `crc = (crc >> 8) ^ table[(crc ^ byte) & 0xFF]` from 0xE300 (40_crc.md, quotation). -/
def crcOf (T : CrcTable) (bytes : List Byte) : Word :=
  bytes.foldl (fun crc byte => (crc >>> 8) ^^^ Machine.tableEntry T (((crc ^^^ byte.setWidth 16) &&& 0xFF).setWidth 8)) 0xE300

/-- Checksum bytes, EOF and ACK as 42_frame.md R70 ends a frame. -/
def trailer (escCrc : Bool) (c : Word) : List Byte :=
  (if escCrc then escaped (c.setWidth 8) ++ escaped ((c >>> 8).setWidth 8) else [c.setWidth 8, (c >>> 8).setWidth 8])
    ++ [0xE3, 0xE1]

/-- The wire frame of a payload that goes out as `body` (42_frame.md R70; 30_encoding.md R45). -/
def wire (p : Params) (dest len cmd : Byte) (payload body : List Byte) : List Byte :=
  [0xE2, dest, len, 0x87, cmd] ++ body ++ trailer p.escCrc (crcOf p.crcTable ([0xE2, dest, len, 0x87, cmd] ++ payload))

/-- The wire frame a request hands to the transport, where it hands one over (42_frame.md R71; 43_commands.md R76, R78;
41_escape.md R66). -/
def wireOf (p : Params) : Instr → Option (List Byte)
  | .crc16 _ => none
  | .crcinit => none
  | .crcupd _ => none
  | .escq _ => none
  | .frame dest len cmd d => some (wire p dest len cmd d (d.flatMap escaped))
  | .cfgbrd addr p1 p2 =>
    some (wire p addr 0x0A 0x26 [p1, p2] (if p.escUniform then escaped p1 ++ escaped p2 else [p1, p2]))
  | .setpwr addr l1 l2 hb =>
    if 19 < l1.toNat ∧ 19 < l2.toNat then none
    else some (wire p addr 0x0B 0x28 [l1, l2, hb]
      ((if p.escUniform then escaped l1 ++ escaped l2 else [l1, l2]) ++ escaped hb))

/-- What `BusWrite(w)` and the `STATUS` write after it can leave (20_memory.md R25; 42_frame.md R71): all of `w` and OK, or
a proper prefix and TransmitFault. -/
def wrote (w : List Byte) (s t : Machine.State) : Prop :=
  (t.status = 0x00 ∧ t.tx = s.tx ++ w) ∨ ∃ k, k < w.length ∧ t.status = 0x02 ∧ t.tx = s.tx ++ w.take k

/-- The frame of a frame operation of `size` request bytes: `CRC`, `STATUS` and `TX` apart, only `rp` moves. -/
def keepsRest (size : Nat) (s t : Machine.State) : Prop :=
  t.escf = s.escf ∧ t.rp = s.rp + size ∧ t.rq = s.rq ∧ t.params = s.params

/-- The state a frame operation leaves when the transport takes the whole frame; the last two fields are the model's own
(log 4). -/
def sentWhole (w : List Byte) (c : Word) (size : Nat) (s : Machine.State) : Machine.State :=
  { s with
    crc := c
    status := 0x00
    rp := s.rp + size
    tx := s.tx ++ w
    txScript := s.txScript.tail
    busWrites := s.busWrites + 1 }

end Sys2Proof.Literal

namespace Sys2Proof

/-- SETPWR's rejection: both levels greater than 19 (spec 43_commands.md R84). -/
def Instr.rejected : Instr → Prop
  | .crc16 _ => False
  | .crcinit => False
  | .crcupd _ => False
  | .escq _ => False
  | .frame _ _ _ _ => False
  | .cfgbrd _ _ _ => False
  | .setpwr _ l1 l2 _ => 19 < l1.toNat ∧ 19 < l2.toNat

/-- The requests that call `BusWrite`: the column `TX` of 10_state.md R22. -/
def Instr.transmits : Instr → Prop
  | .crc16 _ => False
  | .crcinit => False
  | .crcupd _ => False
  | .escq _ => False
  | .frame _ _ _ _ => True
  | .cfgbrd _ _ _ => True
  | .setpwr _ l1 l2 _ => l1.toNat ≤ 19 ∨ l2.toNat ≤ 19

/-- The requests that write `CRC`: the column `CRC` of 10_state.md R22. -/
def Instr.writesCrc : Instr → Prop
  | .crc16 _ => True
  | .crcinit => True
  | .crcupd _ => True
  | .escq _ => False
  | .frame _ _ _ _ => True
  | .cfgbrd _ _ _ => True
  | .setpwr _ l1 l2 _ => l1.toNat ≤ 19 ∨ l2.toNat ≤ 19

end Sys2Proof

namespace Sys2Proof.Machine

/-- The stream position never passes the end of the stream, and `STATUS` holds one of the four codes (10_state.md R13:
"`STATUS[7:2]` always 0"; R17). -/
abbrev State.Inv (s : State) : Prop := s.rp ≤ s.rq.length ∧ s.status.extractLsb' 2 6 = 0

/-- A run is over exactly when `rp = len(RQ)` (70_reset_and_hazards.md R120). -/
abbrev State.finished (s : State) : Prop := s.rp = s.rq.length

/-- The request at `rp` is incomplete: the state is stuck and not final (30_encoding.md R43, 70_reset_and_hazards.md R120). -/
abbrev State.stuck (s : State) : Prop := s.fetch = .incomplete

/-- The next `BusWrite` is answered `OK`. -/
abbrev State.busTakesNext (s : State) : Prop := s.oracleAnswer = .ok

/-- The requests executed in the order of the stream, each atomically (20_memory.md R33): the meaning of a request sequence
without the byte encoding (92 D3). -/
def execAll : List Instr → State → Result
  | [], s => .next s
  | i :: is, s =>
    match exec i s with
    | .next t => execAll is t
    | .fault r => .fault r
    | .refused r => .refused r

/-- `TX` is a sequence of pieces with nothing between them, each the wire frame of a well-formed request that transmits one,
whole or cut off (20_memory.md R25, R29, R33). -/
def State.TxIsFrames (s : State) : Prop :=
  ∃ pieces : List (List Byte), s.tx = pieces.flatten ∧
    ∀ piece ∈ pieces, ∃ i w, i.wellFormed = true ∧ Literal.wireOf s.params i = some w ∧ piece <+: w

end Sys2Proof.Machine
end

