-- ==== Sys2Proof/Certificates/Slice0/Obligations.lean ====
section
/-! DEFINITION. The statements for the provers. Where the spec gives a formula, the statement writes that formula out, in the
terms of `Literal` (Safety.lean), and not through the model's own functions. -/

open Sys2Proof Sys2Proof.Machine

/-! ## Encoding -/

/-- 30_encoding.md R38, R39, R41: no bit of a request is dropped on the way through its bytes, whatever follows them. -/
def Obligations.DecodeOfEncodeIsTheRequest : Prop :=
  ∀ (i : Instr) (rest : List Byte), i.wellFormed = true → decode (encode i ++ rest) = .request i rest

/-- 30_encoding.md R38, R42: the decoder accepts a request's own bytes and nothing else. -/
def Obligations.DecodedBytesAreTheEncoding : Prop :=
  ∀ (bs : List Byte) (i : Instr) (rest : List Byte),
    decode bs = .request i rest → i.wellFormed = true ∧ bs = encode i ++ rest

/-- Words written out from the tables of 30_encoding.md R38, R39, R41 and R51, one per operation. -/
def Obligations.WrittenOutWordsDecode : Prop :=
  decode [0x01, 0x02, 0xE2, 0x88] = .request (.crc16 [0xE2, 0x88]) [] ∧
  decode [0x02, 0x7F] = .request .crcinit [0x7F] ∧
  decode [0x03, 0x41] = .request (.crcupd 0x41) [] ∧
  decode [0x04, 0xE2] = .request (.escq 0xE2) [] ∧
  decode [0x05, 0x88, 0x08, 0x01, 0x01, 0xE0] = .request (.frame 0x88 0x08 0x01 [0xE0]) [] ∧
  decode [0x26, 0x88, 0x01, 0x02] = .request (.cfgbrd 0x88 0x01 0x02) [] ∧
  decode [0x28, 0x89, 0x05, 0x07, 0xE1] = .request (.setpwr 0x89 0x05 0x07 0xE1) []

/-- The layouts of 30_encoding.md R38, R39 and R41, and the lengths they give. -/
def Obligations.RequestLayoutAsTabled : Prop :=
  (∀ d, encode (.crc16 d) = 0x01 :: BitVec.ofNat 8 d.length :: d) ∧
  encode .crcinit = [0x02] ∧
  (∀ b, encode (.crcupd b) = [0x03, b]) ∧
  (∀ b, encode (.escq b) = [0x04, b]) ∧
  (∀ dest len cmd d, encode (.frame dest len cmd d) = 0x05 :: dest :: len :: cmd :: BitVec.ofNat 8 d.length :: d) ∧
  (∀ addr p1 p2, encode (.cfgbrd addr p1 p2) = [0x26, addr, p1, p2]) ∧
  (∀ addr l1 l2 hb, encode (.setpwr addr l1 l2 hb) = [0x28, addr, l1, l2, hb]) ∧
  ∀ i : Instr, i.wellFormed = true → 1 ≤ (encode i).length ∧ (encode i).length ≤ 260

/-- 30_encoding.md R41, R42: the op byte alone decides legality, and 249 of the 256 values are illegal. -/
def Obligations.OtherOpBytesAreIllegal : Prop :=
  (∀ (op : Byte) (rest : List Byte), decode (op :: rest) = .illegalOp op ↔ op ∉ Literal.opBytes) ∧
  ((List.range 256).filter fun n => decide (decode [BitVec.ofNat 8 n] = .illegalOp (BitVec.ofNat 8 n))).length = 249

/-- 20_memory.md R23: `MemRead` is defined exactly when its bytes are there, and an executed request is read from `rp`. -/
def Obligations.MemReadGivesTheRequest : Prop :=
  (∀ (s : State) (a n : Nat), s.memRead a n = none ↔ s.rq.length < a + n) ∧
  (∀ (s : State) (a n k : Nat) (bytes : List Byte), s.memRead a n = some bytes → k < n → bytes[k]? = s.rq[a + k]?) ∧
  ∀ (s : State) (i : Instr) (rest : List Byte),
    s.fetch = .request i rest → s.memRead s.rp (encode i).length = some (encode i)

/-! ## The step -/

/-- 30_encoding.md R38, 20_memory.md R33: a whole request at `rp` is executed by the next step; the step adds nothing. -/
def Obligations.StepRunsTheRequestAtRp : Prop :=
  (∀ (s : State) (i : Instr) (rest : List Byte), s.fetch = .request i rest → step s = exec i s) ∧
  ∀ (s : State) (i : Instr) (rest : List Byte),
    i.wellFormed = true → s.pending = encode i ++ rest → step s = exec i s

/-- The interface's placing of a table word (log 12, 13): the next step runs the instruction it decodes to, and nothing but
the request stream changed. -/
def Obligations.PlacedWordIsRunNext : Prop :=
  ∀ (s : State) (nbits w : Nat) (i : Instr), decodeTableWord nbits w = some i →
    step (s.withFetchWord nbits w) = exec i (s.withFetchWord nbits w) ∧
    s.withFetchWord nbits w = { s with rq := (s.withFetchWord nbits w).rq } ∧
    ∀ a, a < s.rp → a < s.rq.length → (s.withFetchWord nbits w).rq[a]? = s.rq[a]?

/-- 60_exceptions.md R88: an illegal op byte. -/
def Obligations.IllegalOpByteRaisesIllegalRequest : Prop :=
  ∀ (s : State) (op : Byte) (rest : List Byte), op ∉ Literal.opBytes → s.pending = op :: rest →
    step s = .next { s with status := 0x03, rp := s.rp + 1 } ∧
    State.pending { s with status := 0x03, rp := s.rp + 1 } = rest

/-- 30_encoding.md R43 and 60_exceptions.md R89. That the wait is a step that answers the same state is the model's choice
(log 9). -/
def Obligations.IncompleteRequestWaitsForItsBytes : Prop :=
  ∀ (s : State) (i : Instr) (n : Nat), i.wellFormed = true → 0 < n → n < (encode i).length →
    s.pending = (encode i).take n →
    s.stuck ∧ ¬ s.finished ∧ (∀ k, Host.Core.run Sys2Proof.core k s = .next s) ∧
    ∀ more, step (s.hostAppend ((encode i).drop n ++ more)) = exec i (s.hostAppend ((encode i).drop n ++ more))

/-- 70_reset_and_hazards.md R120: without a whole request at `rp` and only then, a step changes nothing (log 9). -/
def Obligations.StepHoldsStillOnlyWhenFinishedOrStuck : Prop :=
  ∀ s : State, s.Inv → (step s = .next s ↔ s.finished ∨ s.stuck)

/-- 60_exceptions.md R93, R94: no error stops the block. Every instruction and every step answers a next state. That a step
does so with an incomplete request or none at `rp` is the model's waiting step (log 9, DESIGN CHOICE): there it executes nothing. -/
def Obligations.NothingStopsTheBlock : Prop :=
  (∀ (i : Instr) (s : State), ∃ t, exec i s = .next t) ∧ ∀ s : State, ∃ t, step s = .next t

/-- 30_encoding.md R53 and 10_state.md R17: `rp` moves on by the length of the request, whatever its result. -/
def Obligations.RpOnlyMovesPastTheRequest : Prop :=
  (∀ (i : Instr) (s : State), ∃ t, exec i s = .next t ∧ t.rp = s.rp + (encode i).length) ∧
  (∀ (s t : State) (i : Instr) (rest : List Byte), s.fetch = .request i rest → step s = .next t →
    t.rp = s.rp + (encode i).length ∧ t.pending = rest) ∧
  ∀ (s t : State) (op : Byte), s.fetch = .illegalOp op → step s = .next t → t.rp = s.rp + 1

/-- 60_exceptions.md R91 (marked derived there): which result code a request ends with, in the fixed order decode, validation,
transmission. `w` is the request's own wire frame, and the transport's answer to it is the model's oracle (log 4, 5). -/
def Obligations.ResultCodesInFixedPriority : Prop :=
  (∀ (s t : State) (op : Byte), s.fetch = .illegalOp op → step s = .next t →
    t.status = 0x03 ∧ t.tx = s.tx ∧ t.crc = s.crc) ∧
  ∀ (s t : State) (i : Instr) (rest : List Byte), s.fetch = .request i rest → step s = .next t →
    (i.rejected → t.status = 0x01 ∧ t.tx = s.tx ∧ t.crc = s.crc) ∧
    (i.transmits → ∃ w, Literal.wireOf s.params i = some w ∧
      (s.busAnswer w = .ok → t.status = 0x00 ∧ t.tx = s.tx ++ w) ∧
      ∀ k, s.busAnswer w = .fault k → k < w.length ∧ t.status = 0x02 ∧ t.tx = s.tx ++ w.take k) ∧
    (¬ i.rejected → ¬ i.transmits → t.status = 0x00 ∧ t.tx = s.tx)

/-- 10_state.md R22 (marked derived there): the table of what each operation writes and reads. -/
def Obligations.WriteAndReadSetsAsTabled : Prop :=
  (∀ (i : Instr) (s t : State), exec i s = .next t →
    (¬ i.writesCrc → t.crc = s.crc) ∧
    ((∀ b, i ≠ .escq b) → t.escf = s.escf) ∧
    (¬ i.transmits → t.tx = s.tx) ∧ s.tx <+: t.tx ∧ t.rq = s.rq ∧ t.params = s.params ∧
    (∀ c, (∀ b, i ≠ .crcupd b) → ∃ u, exec i { s with crc := c } = .next u ∧
      (i.writesCrc → u = t) ∧ (¬ i.writesCrc → u = { t with crc := c })) ∧
    (∀ e, ∃ u, exec i { s with escf := e } = .next u ∧
      (∀ b, i = .escq b → u = t) ∧ ((∀ b, i ≠ .escq b) → u = { t with escf := e })) ∧
    ∀ a, exec i { s with status := a } = .next t) ∧
  ∀ (s t : State) (op : Byte), s.fetch = .illegalOp op → step s = .next t →
    t = { s with status := t.status, rp := t.rp }

/-- 60_exceptions.md R94, 20_memory.md R30: earlier results and earlier transmissions influence no later request. -/
def Obligations.EarlierResultsDoNotMatter : Prop :=
  ∀ (s : State) (i : Instr) (rest : List Byte) (e : Bool) (a : Byte) (x : List Byte), s.fetch = .request i rest →
    ∃ t u y, step s = .next t ∧ step { s with escf := e, status := a, tx := x } = .next u ∧
      u.crc = t.crc ∧ u.status = t.status ∧ u.rp = t.rp ∧ t.tx = s.tx ++ y ∧ u.tx = x ++ y

/-- 20_memory.md R24: bytes the host appends do not change the request being executed. -/
def Obligations.AppendedBytesDoNotChangeTheRequest : Prop :=
  ∀ (s t : State) (i : Instr) (rest bytes : List Byte), s.fetch = .request i rest → step s = .next t →
    step (s.hostAppend bytes) = .next (t.hostAppend bytes)

/-- 20_memory.md R33, 30_encoding.md R38, 92 D3: the machine on the bytes of any sequence of requests does what the requests
do one after the other, and is then at the bytes after them. -/
def Obligations.StreamRunsItsRequestsInOrder : Prop :=
  ∀ (is : List Instr) (s : State) (rest : List Byte), (∀ i ∈ is, i.wellFormed = true) →
    s.pending = is.flatMap encode ++ rest →
    ∃ t, Host.Core.run Sys2Proof.core is.length s = .next t ∧ execAll is s = .next t ∧ t.pending = rest ∧
      (rest = [] → s.rp ≤ s.rq.length → t.finished)

/-! ## Invariants and reset -/

/-- The two invariants hold after reset. -/
def Obligations.ResetIsAGoodState : Prop := State.reset.Inv ∧ State.reset.TxIsFrames

/-- 10_state.md R13, R17: from every state in which `rp` is within the stream and `STATUS[7:2]` is 0, so it is after a step. -/
def Obligations.StepKeepsRpInStreamAndStatusLegal : Prop :=
  ∀ s t : State, s.Inv → step s = .next t → t.Inv

/-- 20_memory.md R25, R29, R33: a step appends to `TX` nothing, or the wire frame of the request it executes, whole or cut off;
so `TX` stays a sequence of such pieces, with nothing between them and nothing that closes a fragment. -/
def Obligations.StepKeepsTxASequenceOfFrames : Prop :=
  ∀ s t : State, step s = .next t →
    (s.TxIsFrames → t.TxIsFrames) ∧
    (t.tx = s.tx ∨ ∃ i rest w, s.fetch = .request i rest ∧ i.wellFormed = true ∧ Literal.wireOf s.params i = some w ∧
      Literal.wrote w s t)

/-- The same invariants under what the environment does. The events rest on the model's choices: a fixed answer in `txScript`
(log 4), what a reset keeps (log 8), and a reset inside a frame as Fault(k) then reset (log 18). -/
def Obligations.EnvironmentKeepsTheInvariants : Prop :=
  ∀ (s : State) (e : EnvEvent), (s.Inv → (s.afterEvent e).Inv) ∧ (s.TxIsFrames → (s.afterEvent e).TxIsFrames)

/-- 10_state.md R21: the state after reset. -/
def Obligations.ResetStateAsStated : Prop :=
  State.reset.crc = 0xE300 ∧ State.reset.escf = false ∧ State.reset.status = 0x00 ∧ State.reset.rp = 0 ∧
  State.reset.rq = [] ∧ State.reset.tx = [] ∧
  (∀ T, checksum T [] = State.reset.crc) ∧
  ∀ b, ∃ t u v, exec (.crcupd b) State.reset = .next t ∧ exec .crcinit State.reset = .next u ∧
    exec (.crcupd b) u = .next v ∧ t.crc = v.crc

/-- 70_reset_and_hazards.md R102: a reset asserted by the host, in any state. -/
def Obligations.HostResetLeavesResetState : Prop :=
  ∀ s : State, s.hostReset.crc = 0xE300 ∧ s.hostReset.escf = false ∧ s.hostReset.status = 0x00 ∧
    s.hostReset.rq = [] ∧ s.hostReset.rp = 0 ∧ s.hostReset.tx = [] ∧ s.hostReset.params = s.params ∧
    ∀ i : Instr, i.wellFormed = true →
      step (s.hostReset.hostAppend (encode i)) = exec i (s.hostReset.hostAppend (encode i))

/-- 70_reset_and_hazards.md R103, 93 U12 (the model's reading, log 18): a reset while `k` bytes of a frame operation's wire
frame are out leaves those `k` bytes on the bus, nothing after them, and the reset state. With no frame operation at `rp` the
event is a plain reset (log 18). What a reset keeps of the oracle is log 8. -/
def Obligations.ResetInsideAFrameLeavesAFragment : Prop :=
  (∀ (s : State) (i : Instr) (rest w : List Byte) (k : Nat),
    s.fetch = .request i rest → Literal.wireOf s.params i = some w → k < w.length →
    s.resetInFrame k = (s.tx ++ w.take k, { s.hostReset with busWrites := s.busWrites + 1 })) ∧
  ∀ (s : State) (k : Nat), (∀ i rest, s.fetch = .request i rest → Literal.wireOf s.params i = none) →
    s.resetInFrame k = (s.tx, s.hostReset)

/-! ## Checksum Engine -/

/-- 40_crc.md R58: CRCINIT. -/
def Obligations.CrcinitLoadsTheSeed : Prop :=
  ∀ s : State, exec .crcinit s = .next { s with crc := 0xE300, status := 0x00, rp := s.rp + 1 } ∧
    ∀ rest, s.pending = 0x02 :: rest → step s = .next { s with crc := 0xE300, status := 0x00, rp := s.rp + 1 }

/-- 40_crc.md R59: CRCUPD. -/
def Obligations.CrcupdAbsorbsOneByte : Prop :=
  ∀ (b : Byte) (s : State),
    let c := (s.crc >>> 8) ^^^ tableEntry s.params.crcTable (((s.crc ^^^ b.setWidth 16) &&& 0xFF).setWidth 8)
    exec (.crcupd b) s = .next { s with crc := c, status := 0x00, rp := s.rp + 2 } ∧
    ∀ rest, s.pending = 0x03 :: b :: rest → step s = .next { s with crc := c, status := 0x00, rp := s.rp + 2 }

/-- 40_crc.md R60: CRC16. The previous value of `CRC` is ignored. -/
def Obligations.Crc16ComputesTheChecksum : Prop :=
  ∀ (d : List Byte) (s : State),
    let t : State := { s with crc := Literal.crcOf s.params.crcTable d, status := 0x00, rp := s.rp + (2 + d.length) }
    exec (.crc16 d) s = .next t ∧
    ∀ n rest, n.toNat = d.length → s.pending = 0x01 :: n :: (d ++ rest) → step s = .next t

/-- The consequence that 40_crc.md R60 marks as derived: CRC16 leaves the same state, except `rp`, as CRCINIT followed by one
CRCUPD per byte. -/
def Obligations.Crc16EqualsInitThenUpdates : Prop :=
  ∀ (d : List Byte) (s : State), ∃ t u,
    exec (.crc16 d) s = .next t ∧ execAll (.crcinit :: d.map .crcupd) s = .next u ∧
    u = { t with rp := s.rp + (1 + 2 * d.length) }

/-- 40_crc.md R54: the byte step, by the formula and by its halves. -/
def Obligations.ByteStepByHalves : Prop :=
  ∀ (T : CrcTable) (c : Word) (b : Byte),
    crcStep T c b = (c >>> 8) ^^^ tableEntry T ((c ^^^ b.setWidth 16).setWidth 8) ∧
    c >>> 8 = (hi8 c).setWidth 16 ∧
    lo8 (c ^^^ b.setWidth 16) = lo8 c ^^^ b ∧
    hi8 (crcStep T c b) = hi8 (tableEntry T (lo8 c ^^^ b)) ∧
    lo8 (crcStep T c b) = hi8 c ^^^ lo8 (tableEntry T (lo8 c ^^^ b))

/-- 40_crc.md R61 (a) to (d): facts that hold for every `CRC_TABLE`. -/
def Obligations.ChecksumFactsForEveryTable : Prop :=
  ∀ T : CrcTable,
    checksum T [] = 0xE300 ∧
    (∀ b, checksum T [b] = 0x00E3 ^^^ tableEntry T b) ∧
    (∀ x y, checksum T (x ++ y) = y.foldl (crcStep T) (checksum T x)) ∧
    ∀ (c : Word) (b x : Byte), crcStep T c b = crcStep T (c ^^^ x.setWidth 16) (b ^^^ x)

/-- 95 vectors computed with the reference table of 40_crc.md R62, which is not from D0 (log 17): the checksums K7, K12, K15,
K16 and the frames F1, B1, W2, W14 at the spec's setting, on a transport that takes them. -/
def Obligations.ReferenceTableVectors : Prop :=
  checksum t8408 [0x00] = 0x00E3 ∧ checksum t8408 [0xE2] = 0xC4FF ∧
  checksum t8408 [0x31, 0x32, 0x33, 0x34, 0x35, 0x36, 0x37, 0x38, 0x39] = 0xB3BA ∧
  checksum t8408 [0xE2, 0x88, 0x0A, 0x87, 0x26, 0x01, 0x02] = 0x6678 ∧
  ∀ s : State, s.params = { crcTable := t8408, escUniform := true, escCrc := false } → s.busTakesNext →
    exec (.frame 0x88 0x08 0x01 []) s =
      .next (Literal.sentWhole [0xE2, 0x88, 0x08, 0x87, 0x01, 0x10, 0x72, 0xE3, 0xE1] 0x7210 5 s) ∧
    exec (.cfgbrd 0x88 0x01 0x02) s =
      .next (Literal.sentWhole [0xE2, 0x88, 0x0A, 0x87, 0x26, 0x01, 0x02, 0x78, 0x66, 0xE3, 0xE1] 0x6678 4 s) ∧
    exec (.setpwr 0x89 0x05 0x07 0xE1) s =
      .next (Literal.sentWhole
        [0xE2, 0x89, 0x0B, 0x87, 0x28, 0x05, 0x07, 0xE0, 0xE1, 0x4B, 0x21, 0xE3, 0xE1] 0x214B 5 s) ∧
    exec (.setpwr 0x88 0x03 0xE2 0x10) s =
      .next (Literal.sentWhole
        [0xE2, 0x88, 0x0B, 0x87, 0x28, 0x03, 0xE0, 0xE2, 0x10, 0x60, 0x19, 0xE3, 0xE1] 0x1960 5 s)

/-! ## Escape Classifier and encoder -/

/-- 41_escape.md R63: the classifier, its masked form, and the number of bytes it holds of. -/
def Obligations.FourControlCodesNeedEscape : Prop :=
  (∀ b : Byte, needsEscape b = true ↔ b = 0xE0 ∨ b = 0xE1 ∨ b = 0xE2 ∨ b = 0xE3) ∧
  (∀ b : Byte, needsEscape b = (b &&& 0xFC == 0xE0)) ∧
  ((List.range 256).filter fun n => needsEscape (BitVec.ofNat 8 n)).length = 4

/-- 41_escape.md R64: the encoder, of a byte and of a sequence. -/
def Obligations.EscapeInsertsOneMarkerPerControlCode : Prop :=
  (∀ b : Byte, b ∈ Literal.controlCodes → escEncode b = [0xE0, b]) ∧
  (∀ b : Byte, b ∉ Literal.controlCodes → escEncode b = [b]) ∧
  (∀ x y, escEncodeAll (x ++ y) = escEncodeAll x ++ escEncodeAll y) ∧
  (∀ b, escEncodeAll [b] = escEncode b) ∧
  ∀ x, (escEncodeAll x).length = x.length + (x.filter fun b => decide (b ∈ Literal.controlCodes)).length

/-- 41_escape.md R65: ESCQ. -/
def Obligations.EscqWritesTheClassification : Prop :=
  ∀ (b : Byte) (s : State),
    let t : State := { s with escf := decide (b ∈ Literal.controlCodes), status := 0x00, rp := s.rp + 2 }
    exec (.escq b) s = .next t ∧ ∀ rest, s.pending = 0x04 :: b :: rest → step s = .next t

/-- 41_escape.md R67, items: a receiver that knows the count reads an escaped payload back, whatever follows. -/
def Obligations.EscapedPayloadReadsBack : Prop :=
  ∀ p rest : List Byte, readItems p.length (escEncodeAll p ++ rest) = some (p, rest)

/-! ## Frame Builder and Board Command Encoder -/

/-- 20_memory.md R25: `BusWrite`, every answer it can give, and that it touches no register and not the request stream. The
answers are the model's: fixed in `txScript` (log 4) and bounded by the frame's length (log 5). -/
def Obligations.BusWriteAppendsAllOrAProperPrefix : Prop :=
  ∀ (w : List Byte) (s : State),
    (s.busAnswer w = .ok → (s.busWrite w).tx = s.tx ++ w) ∧
    (∀ k, s.busAnswer w = .fault k → k < w.length ∧ (s.busWrite w).tx = s.tx ++ w.take k) ∧
    (∃ script, State.busAnswer w { s with txScript := script } = .ok) ∧
    (∀ k, k < w.length → ∃ script, State.busAnswer w { s with txScript := script } = .fault k) ∧
    (s.busWrite w).crc = s.crc ∧ (s.busWrite w).escf = s.escf ∧ (s.busWrite w).status = s.status ∧
    (s.busWrite w).rp = s.rp ∧ (s.busWrite w).rq = s.rq ∧ (s.busWrite w).params = s.params

/-- 42_frame.md R71: FRAME, from any state, for every answer of the transport, and from its request bytes. -/
def Obligations.FrameBuildsAndTransmits : Prop :=
  ∀ (dest len cmd : Byte) (d : List Byte) (s : State), ∃ t, exec (.frame dest len cmd d) s = .next t ∧
    t.crc = Literal.crcOf s.params.crcTable ([0xE2, dest, len, 0x87, cmd] ++ d) ∧
    Literal.wrote (Literal.wire s.params dest len cmd d (d.flatMap Literal.escaped)) s t ∧
    Literal.keepsRest (5 + d.length) s t ∧
    ∀ n rest, n.toNat = d.length → s.pending = 0x05 :: dest :: len :: cmd :: n :: (d ++ rest) → step s = .next t

/-- 43_commands.md R76: CFGBRD, under both settings of `ESC_UNIFORM`. -/
def Obligations.CfgbrdTransmitsSetBoardConfig : Prop :=
  ∀ (addr p1 p2 : Byte) (s : State), ∃ t, exec (.cfgbrd addr p1 p2) s = .next t ∧
    t.crc = Literal.crcOf s.params.crcTable [0xE2, addr, 0x0A, 0x87, 0x26, p1, p2] ∧
    Literal.wrote (Literal.wire s.params addr 0x0A 0x26 [p1, p2]
      (if s.params.escUniform then Literal.escaped p1 ++ Literal.escaped p2 else [p1, p2])) s t ∧
    Literal.keepsRest 4 s t ∧
    ∀ rest, s.pending = 0x26 :: addr :: p1 :: p2 :: rest → step s = .next t

/-- 43_commands.md R78: SETPWR, rejected and accepted, under both settings of `ESC_UNIFORM`. -/
def Obligations.SetpwrValidatesThenTransmits : Prop :=
  ∀ (addr l1 l2 hb : Byte) (s : State), ∃ t, exec (.setpwr addr l1 l2 hb) s = .next t ∧
    (19 < l1.toNat ∧ 19 < l2.toNat → t = { s with status := 0x01, rp := s.rp + 5 }) ∧
    (l1.toNat ≤ 19 ∨ l2.toNat ≤ 19 →
      t.crc = Literal.crcOf s.params.crcTable [0xE2, addr, 0x0B, 0x87, 0x28, l1, l2, hb] ∧
      Literal.wrote (Literal.wire s.params addr 0x0B 0x28 [l1, l2, hb]
        ((if s.params.escUniform then Literal.escaped l1 ++ Literal.escaped l2 else [l1, l2]) ++ Literal.escaped hb)) s t ∧
      Literal.keepsRest 5 s t) ∧
    ∀ rest, s.pending = 0x28 :: addr :: l1 :: l2 :: hb :: rest → step s = .next t

/-- 60_exceptions.md R86: `OutOfRange`, exactly when both levels are greater than 19, and from no other operation. -/
def Obligations.OutOfRangeOnlyFromSetpwrWithTwoBadLevels : Prop :=
  (∀ (addr l1 l2 hb : Byte) (s : State), 19 < l1.toNat → 19 < l2.toNat →
    exec (.setpwr addr l1 l2 hb) s = .next { s with status := 0x01, rp := s.rp + 5 }) ∧
  ∀ (i : Instr) (s t : State), exec i s = .next t → t.status = 0x01 →
    ∃ addr l1 l2 hb, i = .setpwr addr l1 l2 hb ∧ 19 < l1.toNat ∧ 19 < l2.toNat

/-- 43_commands.md R77: the range predicate, unsigned and signed. -/
def Obligations.LevelRangeReadsAlikeSigned : Prop :=
  ∀ l : Byte, (inRange l = true ↔ l.toNat ≤ 19) ∧ (inRange l = true ↔ 0 ≤ l.toInt ∧ l.toInt ≤ 19)

/-- Completion of the three frame operations under the named premise that the transport takes the next frame (20_memory.md
R25): the whole frame is out and the result is OK. The fields `txScript` and `busWrites` are the model's own (log 4). -/
def Obligations.FrameOperationsCompleteOnAWorkingBus : Prop :=
  ∀ s : State, s.busTakesNext →
    (∀ dest len cmd d, exec (.frame dest len cmd d) s = .next (Literal.sentWhole
      (Literal.wire s.params dest len cmd d (d.flatMap Literal.escaped))
      (Literal.crcOf s.params.crcTable ([0xE2, dest, len, 0x87, cmd] ++ d)) (5 + d.length) s)) ∧
    (∀ addr p1 p2, exec (.cfgbrd addr p1 p2) s = .next (Literal.sentWhole
      (Literal.wire s.params addr 0x0A 0x26 [p1, p2]
        (if s.params.escUniform then Literal.escaped p1 ++ Literal.escaped p2 else [p1, p2]))
      (Literal.crcOf s.params.crcTable [0xE2, addr, 0x0A, 0x87, 0x26, p1, p2]) 4 s)) ∧
    ∀ addr l1 l2 hb, l1.toNat ≤ 19 ∨ l2.toNat ≤ 19 → exec (.setpwr addr l1 l2 hb) s = .next (Literal.sentWhole
      (Literal.wire s.params addr 0x0B 0x28 [l1, l2, hb]
        ((if s.params.escUniform then Literal.escaped l1 ++ Literal.escaped l2 else [l1, l2]) ++ Literal.escaped hb))
      (Literal.crcOf s.params.crcTable [0xE2, addr, 0x0B, 0x87, 0x28, l1, l2, hb]) 5 s)

/-- 60_exceptions.md R87 where the transport stops after `k` bytes (an answer fixed in `txScript`, log 4), for the three frame
operations and every `k` below the length of the request's own wire frame: compared with the answer OK, only `STATUS` and the
end of `TX` differ. -/
def Obligations.TransmitFaultLeavesTheFirstBytes : Prop :=
  ∀ (s : State) (i : Instr) (w : List Byte) (k : Nat) (script : List TxAnswer),
    Literal.wireOf s.params i = some w → s.txScript = .fault k :: script → k < w.length →
    ∃ t, exec i s = .next t ∧ t.tx = s.tx ++ w.take k ∧ t.status = 0x02 ∧ t.rp = s.rp + (encode i).length ∧
      t.escf = s.escf ∧ t.rq = s.rq ∧ t.params = s.params ∧ t.txScript = script ∧ t.busWrites = s.busWrites + 1 ∧
      exec i { s with txScript := .ok :: script } = .next { t with tx := s.tx ++ w, status := 0x00 }

/-- 42_frame.md R72 (marked derived there): the length of the wire frame and its bounds at every setting of the escape parameters. -/
def Obligations.WireLengthFormulaAndBounds : Prop :=
  (∀ (T : CrcTable) (escCrc : Bool) (dest len cmd : Byte) (p : List Byte) (chk : List Nat),
    (frameWire T escCrc dest len cmd p chk).length =
      9 + p.length + (p.zipIdx.filter fun x => decide (x.2 ∈ chk) && needsEscape x.1).length +
        (if escCrc then
          ((crcBytes (frameCrc T dest len cmd p)).filter needsEscape).length else 0)) ∧
  (∀ T dest len cmd (p : List Byte), p.length ≤ 255 →
    9 ≤ (frameWire T false dest len cmd p (frameChk p.length)).length ∧
    (frameWire T false dest len cmd p (frameChk p.length)).length ≤ 519) ∧
  (∀ T addr p1 p2,
    11 ≤ (frameWire T false addr 0x0A 0x26 [p1, p2] (cfgbrdChk true)).length ∧
    (frameWire T false addr 0x0A 0x26 [p1, p2] (cfgbrdChk true)).length ≤ 13 ∧
    (frameWire T false addr 0x0A 0x26 [p1, p2] (cfgbrdChk false)).length = 11) ∧
  (∀ T addr l1 l2 hb, inRange l1 = true ∨ inRange l2 = true →
    12 ≤ (frameWire T false addr 0x0B 0x28 [l1, l2, hb] (setpwrChk true)).length ∧
    (frameWire T false addr 0x0B 0x28 [l1, l2, hb] (setpwrChk true)).length ≤ 14 ∧
    ((frameWire T false addr 0x0B 0x28 [l1, l2, hb] (setpwrChk false)).length = 12 ∨
      (frameWire T false addr 0x0B 0x28 [l1, l2, hb] (setpwrChk false)).length = 13)) ∧
  ∀ T dest len cmd p chk,
    (frameWire T false dest len cmd p chk).length ≤ (frameWire T true dest len cmd p chk).length ∧
    (frameWire T true dest len cmd p chk).length ≤ (frameWire T false dest len cmd p chk).length + 2

/-- 41_escape.md R67 and D0 §8's round trip: a receiver that knows the payload count reads every frame whose payload is
checked throughout back exactly, raw header operands included, at both settings of `ESC_CRC`. -/
def Obligations.ReceiverReadsEveryFrameBack : Prop :=
  ∀ (T : CrcTable) (escCrc : Bool) (dest len cmd : Byte) (p rest : List Byte),
    receive escCrc p.length (frameWire T escCrc dest len cmd p (List.range p.length) ++ rest) =
      some ({ dest := dest, len := len, src := 0x87, cmd := cmd, payload := p,
              crc := Literal.crcOf T ([0xE2, dest, len, 0x87, cmd] ++ p) }, rest)

/-- The same for what the two builders transmit on a working bus at `ESC_UNIFORM` true: the receiver, with the payload count
it knows from the command, gets the operands back, one out-of-range level included (43_commands.md R79), and the checksum
matches. -/
def Obligations.TransmittedCommandsReadBack : Prop :=
  ∀ s : State, s.busTakesNext → s.params.escUniform = true →
    (∀ addr p1 p2, ∃ t w r n, exec (.cfgbrd addr p1 p2) s = .next t ∧ t.tx = s.tx ++ w ∧ payloadCount 0x26 = some n ∧
      receive s.params.escCrc n w = some (r, []) ∧ r.dest = addr ∧ r.len = 0x0A ∧ r.src = 0x87 ∧ r.cmd = 0x26 ∧
      r.payload = [p1, p2] ∧ r.crcMatches s.params.crcTable = true) ∧
    ∀ addr l1 l2 hb, l1.toNat ≤ 19 ∨ l2.toNat ≤ 19 → ∃ t w r n,
      exec (.setpwr addr l1 l2 hb) s = .next t ∧ t.tx = s.tx ++ w ∧ payloadCount 0x28 = some n ∧
      receive s.params.escCrc n w = some (r, []) ∧ r.dest = addr ∧ r.len = 0x0B ∧ r.src = 0x87 ∧ r.cmd = 0x28 ∧
      r.payload = [l1, l2, hb] ∧ r.crcMatches s.params.crcTable = true

/-- 41_escape.md R67, 70_reset_and_hazards.md R116, R118: when a receiver that scans for an unescaped EOF finds the end of a
frame: header operands that are no control codes, and checksum bytes that are escaped or are no control codes. What the scan
returns is the model's choice (log 21). -/
def Obligations.ScanningReceiverFindsTheEnd : Prop :=
  ∀ (T : CrcTable) (escCrc : Bool) (dest len cmd : Byte) (p : List Byte),
    dest ∉ Literal.controlCodes → len ∉ Literal.controlCodes → cmd ∉ Literal.controlCodes →
    (escCrc = true ∨ ∀ b ∈ crcBytes (frameCrc T dest len cmd p), b ∉ Literal.controlCodes) →
    scanToEof ((frameWire T escCrc dest len cmd p (List.range p.length)).drop 1) =
      some ([dest, len, 0x87, cmd] ++ p ++ crcBytes (frameCrc T dest len cmd p), [0xE1])

/-- 41_escape.md R67, the other half: that receiver "fails on every frame whose raw CRC_LO or CRC_HI is a control code". To
fail is to refuse the bytes or to return other data or another end than the frame's (log 21). -/
def Obligations.ScanningReceiverFailsOnRawChecksumControlCodes : Prop :=
  ∀ (T : CrcTable) (dest len cmd : Byte) (p : List Byte) (chk : List Nat), (∀ i < p.length, i ∈ chk) →
    (∃ b ∈ crcBytes (frameCrc T dest len cmd p), b ∈ Literal.controlCodes) →
    scanToEof ((frameWire T false dest len cmd p chk).drop 1) ≠
      some ([dest, len, 0x87, cmd] ++ p ++ crcBytes (frameCrc T dest len cmd p), [0xE1])

/-! ## Host programs -/

/-- 30_encoding.md R52: the pseudo-instructions and the request bytes they stand for. -/
def Obligations.PseudoInstructionsExpandAsTabled : Prop :=
  (∀ addr hb, zeroPwr addr hb = .setpwr addr 0 0 hb) ∧
  (∀ (p : Profiles) (hb : Byte),
    init4 p hb =
      [.request (.cfgbrd 0x88 p.w2500 p.w2500), .pause, .request (.cfgbrd 0x89 p.w3700 p.w1800), .pause,
       .request (.setpwr 0x88 0 0 hb), .pause, .request (.setpwr 0x89 0 0 hb), .pause] ∧
    init5 p hb =
      [.request (.cfgbrd 0x88 p.w2500 p.w2500), .pause, .request (.cfgbrd 0x89 p.w3700 p.none), .pause,
       .request (.cfgbrd 0x8A p.w1800 p.w3200), .pause, .request (.setpwr 0x88 0 0 hb), .pause,
       .request (.setpwr 0x89 0 0 hb), .pause, .request (.setpwr 0x8A 0 0 hb), .pause]) ∧
  requestBytes [.pause] = [] ∧ ∀ i, requestBytes [.request i] = encode i

/-- 70_reset_and_hazards.md R109: "With the operands of rules R107 and R108 no step can raise `OutOfRange`", in any state. -/
def Obligations.StartUpRequestsAreNeverOutOfRange : Prop :=
  ∀ (p : Profiles) (hb : Byte) (i : Instr) (s t : State), .request i ∈ init4 p hb ++ init5 p hb →
    exec i s = .next t → t.status = 0x00 ∨ t.status = 0x02
end

