-- ==== Sys2Proof/Laws/Crc.lean ====
section
/-! SUPPORT. The checksum by the shape of its argument. -/

namespace Sys2Proof.Machine

/-- "The seed value, empty-buffer case" (spec 40_crc.md R55). -/
@[simp] theorem checksum_nil (T : CrcTable) : checksum T [] = crcSeed := rfl

/-- The last byte is absorbed last. -/
theorem checksum_concat (T : CrcTable) (bytes : List Byte) (b : Byte) :
    checksum T (bytes ++ [b]) = crcStep T (checksum T bytes) b := by
  simp [checksum]

/-- The table index of the byte step is `lo8(c) ^ b`. -/
theorem lo8_xor_zext16 (c : Word) (b : Byte) : lo8 (c ^^^ zext16 b) = lo8 c ^^^ b := by
  apply BitVec.eq_of_getLsbD_eq
  intro i hi
  simp [lo8, zext16, hi, show i < 16 by omega]

end Sys2Proof.Machine
end

