-- ==== Sys2Proof/Laws/Decode.lean ====
section
/-! SUPPORT. The decoder's parts on what the encoder's parts write. -/

namespace Sys2Proof

/-- The op map read backwards (spec 30_encoding.md R41). -/
@[simp] theorem Op.ofByte_byte (o : Op) : Op.ofByte o.byte = some o := by
  cases o <;> decide

/-- An op byte that selects an operation is that operation's. -/
theorem Op.byte_of_ofByte {b : Byte} {o : Op} (h : Op.ofByte b = some o) : o.byte = b := by
  simpa using List.find?_some h

/-- Bytes that are there are taken. -/
theorem takeBytes_append (d rest : List Byte) : takeBytes d.length (d ++ rest) = some (d, rest) := by
  induction d with
  | nil => rfl
  | cons b d ih => simp [takeBytes, ih]

/-- What was taken, and the rest, make up the bytes. -/
theorem takeBytes_eq_some {n : Nat} {bs d rest : List Byte} :
    takeBytes n bs = some (d, rest) ↔ bs = d ++ rest ∧ d.length = n := by
  constructor
  · induction n generalizing bs d with
    | zero =>
      intro h
      cases h
      exact ⟨rfl, rfl⟩
    | succ n ih =>
      cases bs with
      | nil => intro h; cases h
      | cons b bs =>
        simp only [takeBytes]
        cases hn : takeBytes n bs with
        | none => intro h; cases h
        | some r =>
          intro h
          cases h
          obtain ⟨rfl, hl⟩ := ih hn
          exact ⟨rfl, by simp [hl]⟩
  · rintro ⟨rfl, rfl⟩
    exact takeBytes_append d rest

/-- Bytes are missing exactly when there are fewer than asked for. -/
theorem takeBytes_eq_none {n : Nat} {bs : List Byte} : takeBytes n bs = none ↔ bs.length < n := by
  induction n generalizing bs with
  | zero => simp [takeBytes]
  | succ n ih =>
    cases bs with
    | nil => simp [takeBytes]
    | cons b bs =>
      simp only [takeBytes, List.length_cons, Nat.succ_lt_succ_iff, ← ih]
      cases takeBytes n bs <;> simp

/-- The one count byte holds up to 255 (spec 00_scope.md R6, `NMAX`). -/
theorem countFits_iff {d : List Byte} : countFits d = true ↔ d.length ≤ 255 := decide_eq_true_iff

/-- Counted data that fits its count byte is read back. -/
theorem readCounted_encodeCounted {d : List Byte} (rest : List Byte) (h : countFits d = true) :
    readCounted (encodeCounted d ++ rest) = some (d, rest) := by
  have hd : d.length ≤ 255 := countFits_iff.1 h
  have hn : (BitVec.ofNat 8 d.length).toNat = d.length := by
    rw [BitVec.toNat_ofNat]; omega
  simp only [encodeCounted, List.cons_append, readCounted, hn]
  exact takeBytes_append d rest

end Sys2Proof
end

