-- ==== Sys2Proof/Laws/Env.lean ====
section
/-! SUPPORT. A reset inside a frame, by what the cut-off step answers. -/

namespace Sys2Proof.Machine

/-- The cut-off decides only how the transport answers: the request at `rp` is the same. -/
@[simp] theorem State.fetch_cutAfter (k : Nat) (s : State) : (s.cutAfter k).fetch = s.fetch := rfl

/-- A cut-off within the frame is the transport's answer. -/
theorem State.busAnswer_cutAfter {w : List Byte} {k : Nat} (h : k < w.length) (s : State) :
    (s.cutAfter k).busAnswer w = .fault k := by
  simp [State.busAnswer, State.oracleAnswer, State.cutAfter, boundAnswer, h]

/-- The bytes that reached the bus, and the reset state with the oracle's counter where the step left it (log 18). -/
theorem State.resetInFrame_of_step {s t : State} {k : Nat} (h : step (s.cutAfter k) = .next t) :
    s.resetInFrame k = (t.tx, { s.hostReset with busWrites := t.busWrites }) := by
  simp [State.resetInFrame, h]

end Sys2Proof.Machine
end

