-- ==== Sys2Proof/Laws/State.lean ====
section
/-! SUPPORT. One lemma per field per update of the state, so that no proof unfolds a record update. -/

namespace Sys2Proof.Machine

section setCrc

@[simp] theorem State.setCrc_crc (v : Word) (s : State) : (s.setCrc v).crc = v := rfl
@[simp] theorem State.setCrc_escf (v : Word) (s : State) : (s.setCrc v).escf = s.escf := rfl
@[simp] theorem State.setCrc_status (v : Word) (s : State) : (s.setCrc v).status = s.status := rfl
@[simp] theorem State.setCrc_rp (v : Word) (s : State) : (s.setCrc v).rp = s.rp := rfl
@[simp] theorem State.setCrc_tx (v : Word) (s : State) : (s.setCrc v).tx = s.tx := rfl
@[simp] theorem State.setCrc_rq (v : Word) (s : State) : (s.setCrc v).rq = s.rq := rfl
@[simp] theorem State.setCrc_params (v : Word) (s : State) : (s.setCrc v).params = s.params := rfl
@[simp] theorem State.setCrc_txScript (v : Word) (s : State) : (s.setCrc v).txScript = s.txScript := rfl
@[simp] theorem State.setCrc_busWrites (v : Word) (s : State) : (s.setCrc v).busWrites = s.busWrites := rfl

end setCrc

section setEscf

@[simp] theorem State.setEscf_crc (v : Bool) (s : State) : (s.setEscf v).crc = s.crc := rfl
@[simp] theorem State.setEscf_escf (v : Bool) (s : State) : (s.setEscf v).escf = v := rfl
@[simp] theorem State.setEscf_status (v : Bool) (s : State) : (s.setEscf v).status = s.status := rfl
@[simp] theorem State.setEscf_rp (v : Bool) (s : State) : (s.setEscf v).rp = s.rp := rfl
@[simp] theorem State.setEscf_tx (v : Bool) (s : State) : (s.setEscf v).tx = s.tx := rfl
@[simp] theorem State.setEscf_rq (v : Bool) (s : State) : (s.setEscf v).rq = s.rq := rfl
@[simp] theorem State.setEscf_params (v : Bool) (s : State) : (s.setEscf v).params = s.params := rfl
@[simp] theorem State.setEscf_txScript (v : Bool) (s : State) : (s.setEscf v).txScript = s.txScript := rfl
@[simp] theorem State.setEscf_busWrites (v : Bool) (s : State) : (s.setEscf v).busWrites = s.busWrites := rfl

end setEscf

section endRequest

@[simp] theorem State.endRequest_crc (r : ResultCode) (n : Nat) (s : State) : (s.endRequest r n).crc = s.crc := rfl
@[simp] theorem State.endRequest_escf (r : ResultCode) (n : Nat) (s : State) : (s.endRequest r n).escf = s.escf := rfl
@[simp] theorem State.endRequest_status (r : ResultCode) (n : Nat) (s : State) : (s.endRequest r n).status = r.code := rfl
@[simp] theorem State.endRequest_rp (r : ResultCode) (n : Nat) (s : State) : (s.endRequest r n).rp = s.rp + n := rfl
@[simp] theorem State.endRequest_tx (r : ResultCode) (n : Nat) (s : State) : (s.endRequest r n).tx = s.tx := rfl
@[simp] theorem State.endRequest_rq (r : ResultCode) (n : Nat) (s : State) : (s.endRequest r n).rq = s.rq := rfl
@[simp] theorem State.endRequest_params (r : ResultCode) (n : Nat) (s : State) : (s.endRequest r n).params = s.params := rfl
@[simp] theorem State.endRequest_txScript (r : ResultCode) (n : Nat) (s : State) : (s.endRequest r n).txScript = s.txScript := rfl
@[simp] theorem State.endRequest_busWrites (r : ResultCode) (n : Nat) (s : State) : (s.endRequest r n).busWrites = s.busWrites := rfl

end endRequest

section raise

@[simp] theorem State.raise_crc (e : ResultCode) (n : Nat) (s : State) : (s.raise e n).crc = s.crc := rfl
@[simp] theorem State.raise_escf (e : ResultCode) (n : Nat) (s : State) : (s.raise e n).escf = s.escf := rfl
@[simp] theorem State.raise_status (e : ResultCode) (n : Nat) (s : State) : (s.raise e n).status = e.code := rfl
@[simp] theorem State.raise_rp (e : ResultCode) (n : Nat) (s : State) : (s.raise e n).rp = s.rp + n := rfl
@[simp] theorem State.raise_tx (e : ResultCode) (n : Nat) (s : State) : (s.raise e n).tx = s.tx := rfl
@[simp] theorem State.raise_rq (e : ResultCode) (n : Nat) (s : State) : (s.raise e n).rq = s.rq := rfl
@[simp] theorem State.raise_params (e : ResultCode) (n : Nat) (s : State) : (s.raise e n).params = s.params := rfl
@[simp] theorem State.raise_txScript (e : ResultCode) (n : Nat) (s : State) : (s.raise e n).txScript = s.txScript := rfl
@[simp] theorem State.raise_busWrites (e : ResultCode) (n : Nat) (s : State) : (s.raise e n).busWrites = s.busWrites := rfl

end raise

section busWrite

@[simp] theorem State.busWrite_crc (w : List Byte) (s : State) : (s.busWrite w).crc = s.crc := rfl
@[simp] theorem State.busWrite_escf (w : List Byte) (s : State) : (s.busWrite w).escf = s.escf := rfl
@[simp] theorem State.busWrite_status (w : List Byte) (s : State) : (s.busWrite w).status = s.status := rfl
@[simp] theorem State.busWrite_rp (w : List Byte) (s : State) : (s.busWrite w).rp = s.rp := rfl
@[simp] theorem State.busWrite_tx (w : List Byte) (s : State) : (s.busWrite w).tx = s.tx ++ bytesSent w (s.busAnswer w) := rfl
@[simp] theorem State.busWrite_rq (w : List Byte) (s : State) : (s.busWrite w).rq = s.rq := rfl
@[simp] theorem State.busWrite_params (w : List Byte) (s : State) : (s.busWrite w).params = s.params := rfl
@[simp] theorem State.busWrite_txScript (w : List Byte) (s : State) : (s.busWrite w).txScript = s.txScript.tail := rfl
@[simp] theorem State.busWrite_busWrites (w : List Byte) (s : State) : (s.busWrite w).busWrites = s.busWrites + 1 := rfl

end busWrite

section hostAppend

@[simp] theorem State.hostAppend_crc (bytes : List Byte) (s : State) : (s.hostAppend bytes).crc = s.crc := rfl
@[simp] theorem State.hostAppend_escf (bytes : List Byte) (s : State) : (s.hostAppend bytes).escf = s.escf := rfl
@[simp] theorem State.hostAppend_status (bytes : List Byte) (s : State) : (s.hostAppend bytes).status = s.status := rfl
@[simp] theorem State.hostAppend_rp (bytes : List Byte) (s : State) : (s.hostAppend bytes).rp = s.rp := rfl
@[simp] theorem State.hostAppend_tx (bytes : List Byte) (s : State) : (s.hostAppend bytes).tx = s.tx := rfl
@[simp] theorem State.hostAppend_rq (bytes : List Byte) (s : State) : (s.hostAppend bytes).rq = s.rq ++ bytes := rfl
@[simp] theorem State.hostAppend_params (bytes : List Byte) (s : State) : (s.hostAppend bytes).params = s.params := rfl
@[simp] theorem State.hostAppend_txScript (bytes : List Byte) (s : State) : (s.hostAppend bytes).txScript = s.txScript := rfl
@[simp] theorem State.hostAppend_busWrites (bytes : List Byte) (s : State) : (s.hostAppend bytes).busWrites = s.busWrites := rfl

end hostAppend

section fixAnswer

@[simp] theorem State.fixAnswer_crc (a : TxAnswer) (s : State) : (s.fixAnswer a).crc = s.crc := rfl
@[simp] theorem State.fixAnswer_escf (a : TxAnswer) (s : State) : (s.fixAnswer a).escf = s.escf := rfl
@[simp] theorem State.fixAnswer_status (a : TxAnswer) (s : State) : (s.fixAnswer a).status = s.status := rfl
@[simp] theorem State.fixAnswer_rp (a : TxAnswer) (s : State) : (s.fixAnswer a).rp = s.rp := rfl
@[simp] theorem State.fixAnswer_tx (a : TxAnswer) (s : State) : (s.fixAnswer a).tx = s.tx := rfl
@[simp] theorem State.fixAnswer_rq (a : TxAnswer) (s : State) : (s.fixAnswer a).rq = s.rq := rfl
@[simp] theorem State.fixAnswer_params (a : TxAnswer) (s : State) : (s.fixAnswer a).params = s.params := rfl
@[simp] theorem State.fixAnswer_txScript (a : TxAnswer) (s : State) : (s.fixAnswer a).txScript = s.txScript ++ [a] := rfl
@[simp] theorem State.fixAnswer_busWrites (a : TxAnswer) (s : State) : (s.fixAnswer a).busWrites = s.busWrites := rfl

end fixAnswer

section cutAfter

@[simp] theorem State.cutAfter_crc (k : Nat) (s : State) : (s.cutAfter k).crc = s.crc := rfl
@[simp] theorem State.cutAfter_escf (k : Nat) (s : State) : (s.cutAfter k).escf = s.escf := rfl
@[simp] theorem State.cutAfter_status (k : Nat) (s : State) : (s.cutAfter k).status = s.status := rfl
@[simp] theorem State.cutAfter_rp (k : Nat) (s : State) : (s.cutAfter k).rp = s.rp := rfl
@[simp] theorem State.cutAfter_tx (k : Nat) (s : State) : (s.cutAfter k).tx = s.tx := rfl
@[simp] theorem State.cutAfter_rq (k : Nat) (s : State) : (s.cutAfter k).rq = s.rq := rfl
@[simp] theorem State.cutAfter_params (k : Nat) (s : State) : (s.cutAfter k).params = s.params := rfl
@[simp] theorem State.cutAfter_txScript (k : Nat) (s : State) : (s.cutAfter k).txScript = .fault k :: s.txScript := rfl
@[simp] theorem State.cutAfter_busWrites (k : Nat) (s : State) : (s.cutAfter k).busWrites = s.busWrites := rfl

end cutAfter

section withFetchWord

@[simp] theorem State.withFetchWord_crc (s : State) (nbits w : Nat) : (s.withFetchWord nbits w).crc = s.crc := rfl
@[simp] theorem State.withFetchWord_escf (s : State) (nbits w : Nat) : (s.withFetchWord nbits w).escf = s.escf := rfl
@[simp] theorem State.withFetchWord_status (s : State) (nbits w : Nat) : (s.withFetchWord nbits w).status = s.status := rfl
@[simp] theorem State.withFetchWord_rp (s : State) (nbits w : Nat) : (s.withFetchWord nbits w).rp = s.rp := rfl
@[simp] theorem State.withFetchWord_tx (s : State) (nbits w : Nat) : (s.withFetchWord nbits w).tx = s.tx := rfl
@[simp] theorem State.withFetchWord_rq (s : State) (nbits w : Nat) : (s.withFetchWord nbits w).rq = overwriteAt s.rp (tableBytes nbits w) s.rq := rfl
@[simp] theorem State.withFetchWord_params (s : State) (nbits w : Nat) : (s.withFetchWord nbits w).params = s.params := rfl
@[simp] theorem State.withFetchWord_txScript (s : State) (nbits w : Nat) : (s.withFetchWord nbits w).txScript = s.txScript := rfl
@[simp] theorem State.withFetchWord_busWrites (s : State) (nbits w : Nat) : (s.withFetchWord nbits w).busWrites = s.busWrites := rfl

end withFetchWord

section hostReset

@[simp] theorem State.hostReset_crc (s : State) : (s.hostReset).crc = crcSeed := rfl
@[simp] theorem State.hostReset_escf (s : State) : (s.hostReset).escf = false := rfl
@[simp] theorem State.hostReset_status (s : State) : (s.hostReset).status = 0x00 := rfl
@[simp] theorem State.hostReset_rp (s : State) : (s.hostReset).rp = 0 := rfl
@[simp] theorem State.hostReset_tx (s : State) : (s.hostReset).tx = [] := rfl
@[simp] theorem State.hostReset_rq (s : State) : (s.hostReset).rq = [] := rfl
@[simp] theorem State.hostReset_params (s : State) : (s.hostReset).params = s.params := rfl
@[simp] theorem State.hostReset_txScript (s : State) : (s.hostReset).txScript = s.txScript := rfl
@[simp] theorem State.hostReset_busWrites (s : State) : (s.hostReset).busWrites = s.busWrites := rfl

end hostReset

end Sys2Proof.Machine
end

