-- ==== Sys2Proof/Laws/Ops.lean ====
section
/-! SUPPORT. What the shared operations can do: the transport's answer, the bytes that go out, `MemRead`, and the classifier. -/

namespace Sys2Proof.Machine

/-- `BusWrite` of `n` bytes answers `Fault(k)` only with `k < n`. -/
theorem boundAnswer_eq_fault {n k : Nat} {a : TxAnswer} :
    boundAnswer n a = .fault k ↔ a = .fault k ∧ k < n := by
  cases a with
  | ok => simp [boundAnswer]
  | fault j =>
    by_cases h : j < n
    · simp only [boundAnswer, h, if_true, TxAnswer.fault.injEq]
      exact ⟨fun e => ⟨e, e ▸ h⟩, And.left⟩
    · simp only [boundAnswer, h, if_false, reduceCtorEq, TxAnswer.fault.injEq, false_iff]
      rintro ⟨rfl, hk⟩
      exact h hk

/-- An answer within its bound is returned as it is. -/
theorem boundAnswer_fault {n k : Nat} (h : k < n) : boundAnswer n (.fault k) = .fault k :=
  boundAnswer_eq_fault.2 ⟨rfl, h⟩

@[simp] theorem boundAnswer_ok (n : Nat) : boundAnswer n .ok = .ok := rfl

/-- Whatever the transport answers, what went out is a prefix of the frame. -/
theorem bytesSent_prefix (w : List Byte) (a : TxAnswer) : bytesSent w a <+: w := by
  cases a with
  | ok => exact List.prefix_rfl
  | fault k => exact List.take_prefix k w

/-- The transport's answer depends on no register. -/
@[simp] theorem State.busAnswer_setCrc (v : Word) (w : List Byte) (s : State) :
    (s.setCrc v).busAnswer w = s.busAnswer w := rfl

/-- `MemRead` at `rp` reads the front of what is pending. -/
theorem State.memRead_rp {s : State} {n : Nat} (h : n ≤ s.pending.length) (hn : s.rp ≤ s.rq.length) :
    s.memRead s.rp n = some (s.pending.take n) := by
  have hl : s.pending.length = s.rq.length - s.rp := by simp [State.pending]
  have : s.rp + n ≤ s.rq.length := by omega
  simp [State.memRead, State.pending, this]

/-- The four control codes and no other byte. -/
theorem needsEscape_iff (b : Byte) :
    needsEscape b = true ↔ b = escByte ∨ b = ackByte ∨ b = sofByte ∨ b = eofByte := by
  simp [needsEscape, or_assoc]

/-- The result code of a frame operation is OK exactly when the transport took all bytes. -/
theorem busCode_eq_ok {a : TxAnswer} : busCode a = .ok ↔ a = .ok := by
  cases a <;> simp [busCode]

end Sys2Proof.Machine
end

