-- ==== Sys2Proof/Laws/Escape.lean ====
section
/-! SUPPORT. The escape encoder by the shape of its argument. -/

namespace Sys2Proof.Machine

/-- A control code is preceded by ESC. -/
theorem escEncode_of_needsEscape {b : Byte} (h : needsEscape b = true) : escEncode b = [escByte, b] := by
  simp [escEncode, h]

/-- Any other byte goes as it is. -/
theorem escEncode_of_plain {b : Byte} (h : needsEscape b = false) : escEncode b = [b] := by
  simp [escEncode, h]

@[simp] theorem escEncodeAll_nil : escEncodeAll [] = [] := rfl

@[simp] theorem escEncodeAll_cons (b : Byte) (bytes : List Byte) :
    escEncodeAll (b :: bytes) = escEncode b ++ escEncodeAll bytes := by
  simp [escEncodeAll]

/-- The encoder of one byte adds one byte for a control code. -/
theorem escEncode_length (b : Byte) : (escEncode b).length = 1 + (needsEscape b).toNat := by
  cases h : needsEscape b <;> simp [escEncode, h]

end Sys2Proof.Machine
end

