-- ==== Sys2Proof/Laws/Frame.lean ====
section
/-! SUPPORT. The wire frame, and what building and transmitting one does to each field of the state. -/

namespace Sys2Proof.Machine

/-- A payload all of whose indices are checked is encoded whole. -/
theorem wireBody_checked (p : List Byte) {chk : List Nat} (h : ∀ i < p.length, i ∈ chk) :
    wireBody chk p = escEncodeAll p := by
  have aux : ∀ (q : List Byte) (n : Nat), (∀ i < q.length, n + i ∈ chk) →
      ((q.zipIdx n).flatMap fun x => if x.2 ∈ chk then escEncode x.1 else [x.1]) = escEncodeAll q := by
    intro q
    induction q with
    | nil => intro n _; rfl
    | cons b q ih =>
      intro n hq
      have h0 : n ∈ chk := by simpa using hq 0 (by simp)
      have hs := ih (n + 1) fun i hi => by
        simpa [Nat.add_comm, Nat.add_left_comm] using hq (i + 1) (by simpa using hi)
      simp [List.zipIdx_cons, h0, hs]
  exact aux p 0 fun i hi => by simpa using h i hi

/-- FRAME's payload is encoded whole. -/
@[simp] theorem wireBody_frameChk (p : List Byte) : wireBody (frameChk p.length) p = escEncodeAll p :=
  wireBody_checked p fun i hi => by simpa [frameChk] using hi

section sendFrame

variable (dest len cmd : Byte) (p : List Byte) (chk : List Nat) (size : Nat) (s : State)

@[simp] theorem State.sendFrame_crc :
    (s.sendFrame dest len cmd p chk size).crc = frameCrc s.params.crcTable dest len cmd p := rfl

@[simp] theorem State.sendFrame_escf : (s.sendFrame dest len cmd p chk size).escf = s.escf := rfl

@[simp] theorem State.sendFrame_status :
    (s.sendFrame dest len cmd p chk size).status =
      (busCode (s.busAnswer (frameWire s.params.crcTable s.params.escCrc dest len cmd p chk))).code := rfl

@[simp] theorem State.sendFrame_rp : (s.sendFrame dest len cmd p chk size).rp = s.rp + size := rfl

@[simp] theorem State.sendFrame_tx :
    (s.sendFrame dest len cmd p chk size).tx =
      s.tx ++ bytesSent (frameWire s.params.crcTable s.params.escCrc dest len cmd p chk)
        (s.busAnswer (frameWire s.params.crcTable s.params.escCrc dest len cmd p chk)) := rfl

@[simp] theorem State.sendFrame_rq : (s.sendFrame dest len cmd p chk size).rq = s.rq := rfl

@[simp] theorem State.sendFrame_params : (s.sendFrame dest len cmd p chk size).params = s.params := rfl

@[simp] theorem State.sendFrame_txScript :
    (s.sendFrame dest len cmd p chk size).txScript = s.txScript.tail := rfl

@[simp] theorem State.sendFrame_busWrites :
    (s.sendFrame dest len cmd p chk size).busWrites = s.busWrites + 1 := rfl

end sendFrame

end Sys2Proof.Machine
end

