-- ==== Sys2Proof/Laws/Exec.lean ====
section
/-! SUPPORT. SETPWR by its two cases (spec 43_commands.md R78). -/

namespace Sys2Proof.Machine

/-- The range check against 19 (43_commands.md R77). -/
theorem inRange_iff (l : Byte) : inRange l = true ↔ l.toNat ≤ 19 := by
  simp [inRange, levelMax, BitVec.le_def]

/-- Both levels out of range: nothing is built or sent. -/
theorem execSetpwr_rejected {addr l1 l2 hb : Byte} {s : State} (h1 : inRange l1 = false) (h2 : inRange l2 = false) :
    execSetpwr addr l1 l2 hb s = .next (s.raise .outOfRange 5) := by
  simp [execSetpwr, h1, h2]

/-- At least one level in range: the frame is sent with both levels as given. -/
theorem execSetpwr_accepted {addr l1 l2 hb : Byte} {s : State} (h : inRange l1 = true ∨ inRange l2 = true) :
    execSetpwr addr l1 l2 hb s =
      .next (s.sendFrame addr lenSetPwrLevels cmdSetPwrLevels [l1, l2, hb] (setpwrChk s.params.escUniform) 5) := by
  rcases h with h | h <;> simp [execSetpwr, h]

end Sys2Proof.Machine
end

