-- ==== Sys2Proof/Laws/Literal.lean ====
section
/-! SUPPORT. The spec's formulas as Safety.lean writes them out, and the model's functions, are the same. -/

namespace Sys2Proof.Machine

/-- The classifier by the list of codes. -/
theorem needsEscape_literal (b : Byte) : needsEscape b = decide (b ∈ Literal.controlCodes) := by
  revert b; decide +kernel

theorem escEncode_literal (b : Byte) : escEncode b = Literal.escaped b := by
  simp [escEncode, Literal.escaped, needsEscape_literal]; rfl

theorem escEncodeAll_literal (bytes : List Byte) : escEncodeAll bytes = bytes.flatMap Literal.escaped := by
  simp [escEncodeAll, funext escEncode_literal]

theorem lo8_literal (c : Word) : lo8 c = c.setWidth 8 := by
  apply BitVec.eq_of_getLsbD_eq
  intro i hi
  simp [lo8, hi]

theorem hi8_literal (c : Word) : hi8 c = (c >>> 8).setWidth 8 := by
  apply BitVec.eq_of_getLsbD_eq
  intro i hi
  simp [hi8, hi]

/-- D0's update is the byte step. -/
theorem crcStep_literal (T : CrcTable) (c : Word) (b : Byte) :
    (c >>> 8) ^^^ tableEntry T (((c ^^^ b.setWidth 16) &&& 0xFF).setWidth 8) = crcStep T c b := by
  have h : ∀ x : Word, (x &&& 0xFF).setWidth 8 = lo8 x := by
    intro x
    apply BitVec.eq_of_getLsbD_eq
    intro i hi
    have hi' : (0xFF : Word).getLsbD i = true := by interval_cases i <;> rfl
    simp only [lo8, BitVec.getLsbD_extractLsb', BitVec.getLsbD_setWidth, BitVec.getLsbD_and, hi']
    simp [hi]
  rw [h]
  rfl

theorem checksum_literal (T : CrcTable) (bytes : List Byte) : checksum T bytes = Literal.crcOf T bytes := by
  simp only [Literal.crcOf, checksum, crcStep_literal]
  rfl

/-- The wire frame by its parts. -/
theorem frameWire_literal (P : Params) (dest len cmd : Byte) (p : List Byte) (chk : List Nat) :
    frameWire P.crcTable P.escCrc dest len cmd p chk = Literal.wire P dest len cmd p (wireBody chk p) := by
  have ht : ∀ c, wireCrc P.escCrc c ++ [eofByte, ackByte] = Literal.trailer P.escCrc c := by
    intro c
    cases P.escCrc <;>
      simp [wireCrc, Literal.trailer, crcBytes, lo8_literal, hi8_literal, escEncode_literal, eofByte, ackByte]
  simp only [frameWire, Literal.wire, List.append_assoc, ht, checksum_literal, frameCrc, frameLogical]
  rfl

/-- The profile bytes on the wire (spec 41_escape.md R66). -/
theorem wireBody_cfgbrdChk (u : Bool) (p1 p2 : Byte) :
    wireBody (cfgbrdChk u) [p1, p2] = if u then Literal.escaped p1 ++ Literal.escaped p2 else [p1, p2] := by
  cases u <;> simp [wireBody, cfgbrdChk, List.zipIdx_cons, escEncode_literal]

/-- The level bytes and the heartbeat on the wire (41_escape.md R66). -/
theorem wireBody_setpwrChk (u : Bool) (l1 l2 hb : Byte) :
    wireBody (setpwrChk u) [l1, l2, hb] =
      (if u then Literal.escaped l1 ++ Literal.escaped l2 else [l1, l2]) ++ Literal.escaped hb := by
  cases u <;> simp [wireBody, setpwrChk, List.zipIdx_cons, escEncode_literal]

/-- A frame operation builds and sends its own wire frame; `chk` depends on `ESC_UNIFORM` alone. -/
theorem exec_of_wireOf {P : Params} {i : Instr} {w : List Byte} (h : Literal.wireOf P i = some w) :
    ∃ dest len cmd p chk, w = frameWire P.crcTable P.escCrc dest len cmd p chk ∧
      ∀ s : State, s.params = P → exec i s = .next (s.sendFrame dest len cmd p chk (encode i).length) := by
  cases i with
  | frame dest len cmd d =>
    cases h
    refine ⟨dest, len, cmd, d, frameChk d.length, ?_, fun s _ => ?_⟩
    · rw [frameWire_literal, wireBody_frameChk, escEncodeAll_literal]
    · simp only [exec, execFrame, encode, encodeOperands, encodeCounted, List.length_cons, List.length_append,
        List.length_nil]
      congr 2
      omega
  | cfgbrd addr p1 p2 =>
    cases h
    refine ⟨addr, lenSetBoardConfig, cmdSetBoardConfig, [p1, p2], cfgbrdChk P.escUniform, ?_, fun s hs => ?_⟩
    · rw [frameWire_literal, wireBody_cfgbrdChk]
      rfl
    · subst hs
      rfl
  | setpwr addr l1 l2 hb =>
    by_cases hr : 19 < l1.toNat ∧ 19 < l2.toNat
    · simp [Literal.wireOf, hr] at h
    · simp only [Literal.wireOf, hr, if_false, Option.some.injEq] at h
      subst h
      refine ⟨addr, lenSetPwrLevels, cmdSetPwrLevels, [l1, l2, hb], setpwrChk P.escUniform, ?_, fun s hs => ?_⟩
      · rw [frameWire_literal, wireBody_setpwrChk]
        rfl
      · subst hs
        exact execSetpwr_accepted (by simp only [inRange_iff]; omega)
  | _ => cases h

/-- A request without a wire frame leaves `TX`, `txScript` and `busWrites` alone. -/
theorem exec_of_wireOf_none {s : State} {i : Instr} (h : Literal.wireOf s.params i = none) :
    ∃ t, exec i s = .next t ∧ t.tx = s.tx ∧ t.params = s.params ∧ t.txScript = s.txScript ∧ t.busWrites = s.busWrites := by
  cases i with
  | setpwr addr l1 l2 hb =>
    by_cases hr : 19 < l1.toNat ∧ 19 < l2.toNat
    · have hn : ∀ l : Byte, 19 < l.toNat → inRange l = false := fun l hl => by
        rw [← Bool.not_eq_true, inRange_iff]
        omega
      exact ⟨_, execSetpwr_rejected (hn l1 hr.1) (hn l2 hr.2), rfl, rfl, rfl, rfl⟩
    · simp [Literal.wireOf, hr] at h
  | frame => cases h
  | cfgbrd => cases h
  | _ => exact ⟨_, rfl, rfl, rfl, rfl, rfl⟩

end Sys2Proof.Machine
end

