-- ==== Sys2Proof/Laws/PerInstr.lean ====
section
/-! SUPPORT. Per instruction: a request's bytes begin with its op byte and are as many as its format says (spec
30_encoding.md R38, R41). -/

namespace Sys2Proof.Laws.RequestShape

/-- The encoded request begins with the op byte of its operation and has the length of its format. -/
def Statement (i : Instr) : Prop := (encode i).head? = some i.op.byte ∧ (encode i).length = i.size

theorem crc16 (d : List Byte) : Statement (.crc16 d) := by
  refine ⟨rfl, ?_⟩
  simp only [encode, encodeOperands, encodeCounted, Instr.size, List.length_cons]
  omega

theorem crcinit : Statement .crcinit := ⟨rfl, rfl⟩

theorem crcupd (b : Byte) : Statement (.crcupd b) := ⟨rfl, rfl⟩

theorem escq (b : Byte) : Statement (.escq b) := ⟨rfl, rfl⟩

theorem frame (dest len cmd : Byte) (d : List Byte) : Statement (.frame dest len cmd d) := by
  refine ⟨rfl, ?_⟩
  simp only [encode, encodeOperands, encodeCounted, Instr.size, List.length_cons, List.length_append, List.length_nil]
  omega

theorem cfgbrd (addr p1 p2 : Byte) : Statement (.cfgbrd addr p1 p2) := ⟨rfl, rfl⟩

theorem setpwr (addr l1 l2 hb : Byte) : Statement (.setpwr addr l1 l2 hb) := ⟨rfl, rfl⟩

end Sys2Proof.Laws.RequestShape
end

