-- ==== Sys2Proof/Laws/Receiver.lean ====
section
/-! SUPPORT. The two receivers of spec 41_escape.md R67 on what the encoder writes. -/

namespace Sys2Proof.Machine

/-- An encoded byte is one item. -/
theorem readItem_escEncode (b : Byte) (rest : List Byte) : readItem (escEncode b ++ rest) = some (b, rest) := by
  cases h : needsEscape b with
  | true => simp [escEncode, h, readItem]
  | false =>
    have : b ≠ escByte := by rintro rfl; exact absurd h (by decide)
    simp [escEncode, h, readItem, this]

/-- The scan takes a byte that is no control code as data. -/
theorem scanToEof_plain {b : Byte} (h : needsEscape b = false) {rest : List Byte} {r : List Byte × List Byte}
    (hr : scanToEof rest = some r) : scanToEof (b :: rest) = some (b :: r.1, r.2) := by
  have h1 : b ≠ escByte := by rintro rfl; exact absurd h (by decide)
  have h2 : b ≠ eofByte := by rintro rfl; exact absurd h (by decide)
  cases rest with
  | nil => simp [scanToEof] at hr
  | cons c rest => simp [scanToEof, h1, h2, h, hr]

/-- The scan takes an encoded byte as the byte. -/
theorem scanToEof_escEncode (b : Byte) {rest : List Byte} {r : List Byte × List Byte} (hr : scanToEof rest = some r) :
    scanToEof (escEncode b ++ rest) = some (b :: r.1, r.2) := by
  cases h : needsEscape b with
  | true => simp [escEncode, h, scanToEof, hr, show escByte ≠ eofByte by decide]
  | false => simpa [escEncode, h] using scanToEof_plain h hr

/-- What the scan answers came out of no fewer bytes than the encoder would write for it, EOF included. -/
theorem scanToEof_length {bs : List Byte} {r : List Byte × List Byte} (h : scanToEof bs = some r) :
    (escEncodeAll r.1).length + 1 + r.2.length ≤ bs.length := by
  induction bs using scanToEof.induct generalizing r with
  | case1 => simp [scanToEof] at h
  | case2 => simp only [scanToEof, if_true, Option.some.injEq] at h; subst h; simp
  | case3 b hb => simp [scanToEof, hb] at h
  | case4 c rest => simp only [scanToEof, if_true, Option.some.injEq] at h; subst h; simp; omega
  | case5 c rest hb ih =>
    simp only [scanToEof, hb, if_true, if_false, Option.map_eq_some_iff] at h
    obtain ⟨r, hr, rfl⟩ := h
    have := ih hr
    have := escEncode_length c
    have := (needsEscape c).toNat_le
    simp only [escEncodeAll_cons, List.length_append, List.length_cons]
    omega
  | case6 b c rest h1 h2 h3 => simp [scanToEof, h1, h2, h3] at h
  | case7 b c rest h1 h2 h3 ih =>
    rw [scanToEof, if_neg h1, if_neg h2, if_neg h3, Option.map_eq_some_iff] at h
    obtain ⟨r, hr, rfl⟩ := h
    have := ih hr
    simp only [escEncodeAll_cons, escEncode_of_plain (Bool.not_eq_true _ ▸ h3), List.length_append, List.length_cons,
      List.length_nil] at *
    omega

end Sys2Proof.Machine
end

