-- ==== Sys2Proof/Laws/Step.lean ====
section
/-! SUPPORT. A step by what the decoder reads, and a run by its first step. -/

namespace Sys2Proof.Machine

/-- An illegal op byte ends its one-byte request with `IllegalRequest` (spec 60_exceptions.md R88). -/
theorem step_of_illegalOp {s : State} {op : Byte} (h : s.fetch = .illegalOp op) :
    step s = .next (s.raise .illegalRequest 1) := by
  simp [step, h, execIllegal]

/-- A block without a whole request waits (60_exceptions.md R89). -/
theorem step_of_stuck {s : State} (h : s.fetch = .incomplete) : step s = .next s := by
  simp [step, h, waitForBytes]

/-- A block at the end of its stream waits (70_reset_and_hazards.md R102 "idle"). -/
theorem step_of_noRequest {s : State} (h : s.fetch = .noRequest) : step s = .next s := by
  simp [step, h, waitForBytes]

/-- A run goes on from the state its first step answers. -/
theorem run_succ {s t : State} (k : Nat) (h : step s = .next t) :
    Host.Core.run Sys2Proof.core (k + 1) s = Host.Core.run Sys2Proof.core k t := by
  have h' : Sys2Proof.core.step s = .next t := h
  simp only [Host.Core.run, h']

end Sys2Proof.Machine
end

