-- ==== Sys2Proof/Tests/Slice0.lean ====
section
/-! SUPPORT. Tests with expected values from the spec (30_encoding.md's tables and the vectors of 95_test_vectors.md), and
for every statement with hypotheses a concrete case that meets them. -/

namespace Sys2Proof.Tests

open Sys2Proof Sys2Proof.Machine

/-- The spec's setting with its reference table (95, label "T8408"). -/
def refParams : Params := { crcTable := t8408, escUniform := true, escCrc := false }

/-- Reset, with the reference table, one fixed answer of the transport and some request bytes. -/
def on (a : TxAnswer) (bytes : List Byte) : State := { State.reset with params := refParams, txScript := [a], rq := bytes }

/-- Reset with some request bytes: the table and the transport stay open. -/
def fed (bytes : List Byte) : State := { State.reset with rq := bytes }

/-- A check of the state a step answers. -/
def next (r : Result) (check : State → Bool) : Bool :=
  match r with
  | .next t => check t
  | .fault _ => false
  | .refused _ => false

/-! ## WellFormed refuses what no count byte can hold -/

theorem test_wf_crc16_256_refused : (Instr.crc16 (List.replicate 256 0)).wellFormed = false := by decide +kernel
theorem test_wf_frame_256_refused : (Instr.frame 0x88 0 1 (List.replicate 256 0)).wellFormed = false := by decide +kernel
theorem test_wf_255_accepted : (Instr.crc16 (List.replicate 255 0)).wellFormed = true := by decide +kernel

/-! ## Decoding, from the layouts of 30_encoding.md R38, R39, R41 -/

theorem test_decode_crc16 : decode [0x01, 0x03, 0xAA, 0xBB, 0xCC, 0x02] = .request (.crc16 [0xAA, 0xBB, 0xCC]) [0x02] := by decide
theorem test_decode_crcinit : decode [0x02] = .request .crcinit [] := by decide
theorem test_decode_crcupd : decode [0x03, 0x41, 0x03] = .request (.crcupd 0x41) [0x03] := by decide
theorem test_decode_escq : decode [0x04, 0xE2] = .request (.escq 0xE2) [] := by decide
theorem test_decode_frame :
    decode [0x05, 0x8A, 0x0C, 0x30, 0x02, 0xE0, 0xE1] = .request (.frame 0x8A 0x0C 0x30 [0xE0, 0xE1]) [] := by decide
theorem test_decode_cfgbrd : decode [0x26, 0x89, 0xE3, 0x00] = .request (.cfgbrd 0x89 0xE3 0x00) [] := by decide
theorem test_decode_setpwr : decode [0x28, 0x8A, 0x13, 0x14, 0x7F] = .request (.setpwr 0x8A 0x13 0x14 0x7F) [] := by decide

/-- X1, X2: illegal op bytes; X7, X8, X9: incomplete requests. -/
theorem test_decode_rejects :
    decode [0x07] = .illegalOp 0x07 ∧ decode [0x00] = .illegalOp 0x00 ∧ decode [0x28, 0x88, 0x00] = .incomplete ∧
    decode [0x01, 0x05, 0xAA, 0xBB] = .incomplete ∧ decode [0x01] = .incomplete ∧ decode [] = .noRequest := by decide

/-- No two rows of the op map overlap (R41, mask 0xFF). -/
theorem test_op_bytes_distinct : (Op.all.map Op.byte).Nodup := by decide

/-- The table's numbering: the second byte is bits 15..8, and bytes the table does not give are zero. -/
theorem test_table_words :
    decodeTableWord 16 0x4103 = some (.crcupd 0x41) ∧ decodeTableWord 8 0x05 = some (.frame 0 0 0 []) ∧
    decodeTableWord 8 0x28 = some (.setpwr 0 0 0 0) ∧ decodeTableWord 8 0x07 = none := by decide +kernel

/-! ## The reference table 40_crc.md R62 prints is the one its construction gives -/

theorem test_reference_table : t8408.toList = (List.range 256).map refEntry := by decide +kernel

/-! ## One step each -/

/-- P1: CRCUPD 0xE2 from the seed. -/
theorem test_crcupd_seed : next (step (on .ok [0x03, 0xE2])) (fun t => t.crc == 0xC4FF && t.rp == 2) = true := by decide +kernel

/-- R59's example, for every table: from 0xE300, byte 0x41 gives `0x00E3 ^ T[0x41]`. -/
theorem test_crcstep_any_table (T : CrcTable) : crcStep T 0xE300 0x41 = 0x00E3 ^^^ tableEntry T 0x41 := by
  rw [crcStep, show lo8 (0xE300 ^^^ zext16 0x41) = 0x41 by decide]
  rfl

/-- R58's example. -/
theorem test_crcinit : exec .crcinit { State.reset with crc := 0x1234 } = .next { State.reset with crc := 0xE300, rp := 1 } := rfl

/-- P1: CRC16 [E2 88]. -/
theorem test_crc16_two_bytes :
    next (step (on .ok [0x01, 0x02, 0xE2, 0x88])) (fun t => t.crc == 0x07FC && t.rp == 4) = true := by decide +kernel

/-- S1: CRC16 [] on the open table. -/
theorem test_crc16_empty : step (fed [0x01, 0x00]) = .next { fed [0x01, 0x00] with rp := 2 } := rfl

/-- R65's corner cases. -/
theorem test_escq_codes :
    ([0xDF, 0xE0, 0xE1, 0xE2, 0xE3, 0xE4].map fun b => next (step (fed [0x04, b])) (·.escf)) =
      [false, true, true, true, true, false] := by decide +kernel

/-- F2: every payload byte escaped. -/
theorem test_frame_escapes_payload :
    next (step (on .ok [0x05, 0x8A, 0x0C, 0x30, 0x04, 0xE0, 0xE1, 0xE2, 0xE3])) (fun t =>
      t.tx == [0xE2, 0x8A, 0x0C, 0x87, 0x30, 0xE0, 0xE0, 0xE0, 0xE1, 0xE0, 0xE2, 0xE0, 0xE3, 0x06, 0xA5, 0xE3, 0xE1]
        && t.crc == 0xA506 && t.status == 0x00) = true := by decide +kernel

/-- F4: the transport stops after four bytes. -/
theorem test_frame_transmit_fault :
    next (step (on (.fault 4) [0x05, 0x89, 0x09, 0x30, 0x01, 0xE0])) (fun t =>
      t.tx == [0xE2, 0x89, 0x09, 0x87] && t.crc == 0x4F78 && t.status == 0x02 && t.rp == 6) = true := by decide +kernel

/-- B3: a profile byte escaped, LEN unaffected. -/
theorem test_cfgbrd_escapes_profile :
    next (step (on .ok [0x26, 0x89, 0xE3, 0x00])) (fun t =>
      t.tx == [0xE2, 0x89, 0x0A, 0x87, 0x26, 0xE0, 0xE3, 0x00, 0x68, 0x9B, 0xE3, 0xE1] && t.rp == 4) = true := by
  decide +kernel

/-- B4: the same with `ESC_UNIFORM` false. -/
theorem test_cfgbrd_literal_source :
    next (exec (.cfgbrd 0x89 0xE3 0x00) { on .ok [] with params := { refParams with escUniform := false } }) (fun t =>
      t.tx == [0xE2, 0x89, 0x0A, 0x87, 0x26, 0xE3, 0x00, 0x68, 0x9B, 0xE3, 0xE1]) = true := by decide +kernel

/-- X6: the transport stops after ten of the eleven bytes. -/
theorem test_cfgbrd_transmit_fault :
    next (step (on (.fault 10) [0x26, 0x88, 0x01, 0x02])) (fun t =>
      t.tx == [0xE2, 0x88, 0x0A, 0x87, 0x26, 0x01, 0x02, 0x78, 0x66, 0xE3] && t.status == 0x02 && t.rp == 4) = true := by
  decide +kernel

/-- W11': a checksum byte escaped under `ESC_CRC`. -/
theorem test_setpwr_esc_crc :
    next (exec (.setpwr 0x88 0x00 0x00 0x49) { on .ok [] with params := { refParams with escCrc := true } }) (fun t =>
      t.tx == [0xE2, 0x88, 0x0B, 0x87, 0x28, 0x00, 0x00, 0x49, 0x69, 0xE0, 0xE3, 0xE3, 0xE1]) = true := by decide +kernel

/-- W4, W5: 20 and 20 rejected, 19 and 20 sent. -/
theorem test_setpwr_range :
    next (step (on .ok [0x28, 0x8A, 0x14, 0x14, 0x7F])) (fun t =>
      t.status == 0x01 && t.tx == [] && t.crc == 0xE300 && t.rp == 5) = true ∧
    next (step (on .ok [0x28, 0x8A, 0x13, 0x14, 0x7F])) (fun t =>
      t.status == 0x00 && t.tx == [0xE2, 0x8A, 0x0B, 0x87, 0x28, 0x13, 0x14, 0x7F, 0x67, 0x18, 0xE3, 0xE1]) = true := by
  decide +kernel

/-- X1: an illegal op byte. -/
theorem test_illegal_request :
    step { fed [0x07] with crc := 0x1234, escf := true } =
      .next { fed [0x07] with crc := 0x1234, escf := true, status := 0x03, rp := 1 } := rfl

/-- X7: an incomplete request. -/
theorem test_incomplete_waits : step (fed [0x28, 0x88, 0x00]) = .next (fed [0x28, 0x88, 0x00]) := rfl

/-- The interface's placing of a word, on reset itself. -/
theorem test_placed_word_runs : next (step (State.reset.withFetchWord 8 0x02)) (fun t => t.rp == 1 && t.status == 0) = true := by
  decide +kernel

/-- Host reads of the three registers, zero-extended. -/
theorem test_host_reads :
    State.hostRead { State.reset with escf := true, status := 0x03 } .crc = 0xE300 ∧
    State.hostRead { State.reset with escf := true, status := 0x03 } .escf = 1 ∧
    State.hostRead { State.reset with escf := true, status := 0x03 } .status = 3 := by decide

/-- W2's frame read back by the receiver of 41_escape.md R67. -/
theorem test_receive_w2 :
    receive false 3 [0xE2, 0x89, 0x0B, 0x87, 0x28, 0x05, 0x07, 0xE0, 0xE1, 0x4B, 0x21, 0xE3, 0xE1] =
      some ({ dest := 0x89, len := 0x0B, src := 0x87, cmd := 0x28, payload := [0x05, 0x07, 0xE1], crc := 0x214B }, []) := by
  decide

/-- 70_reset_and_hazards.md R116: heartbeat 0x6B gives checksum bytes 79 E1, and the scan of 41_escape.md R67 fails on
that frame; on F1's frame it does not. -/
theorem test_scan_r116 :
    scanToEof [0x88, 0x0B, 0x87, 0x28, 0x00, 0x00, 0x6B, 0x79, 0xE1, 0xE3, 0xE1] = none ∧
    crcBytes (frameCrc t8408 0x88 0x0B 0x28 [0, 0, 0x6B]) = [0x79, 0xE1] ∧
    scanToEof [0x88, 0x08, 0x87, 0x01, 0x10, 0x72, 0xE3, 0xE1] = some ([0x88, 0x08, 0x87, 0x01, 0x10, 0x72], [0xE1]) := by
  decide +kernel

/-- P2's 4-coil request bytes, with the profile bytes P2 invents. -/
theorem test_init4_bytes :
    requestBytes (init4 { none := 0, w1800 := 1, w2500 := 2, w3200 := 3, w3700 := 4 } 0) =
      [0x26, 0x88, 0x02, 0x02, 0x26, 0x89, 0x04, 0x01, 0x28, 0x88, 0x00, 0x00, 0x00, 0x28, 0x89, 0x00, 0x00, 0x00] := by
  decide

/-! ## Witnesses: a concrete case for the hypotheses of each statement -/

theorem test_witness_DecodeOfEncodeIsTheRequest :
    (Instr.frame 0x88 0x08 0x01 (List.replicate 255 0xE0)).wellFormed = true ∧ (Instr.crc16 []).wellFormed = true := by
  decide +kernel
theorem test_witness_DecodedBytesAreTheEncoding : decode [0x04, 0xE2, 0x07] = .request (.escq 0xE2) [0x07] := by decide
theorem test_witness_RequestLayoutAsTabled :
    (encode (.frame 0x88 0x08 0x01 (List.replicate 255 0))).length = 260 ∧ (encode .crcinit).length = 1 := by decide +kernel
theorem test_witness_MemReadGivesTheRequest :
    (fed [0x04, 0xE2]).memRead 0 2 = some [0x04, 0xE2] ∧ (fed [0x04, 0xE2]).memRead 0 3 = none ∧
    (fed [0x04, 0xE2]).fetch = .request (.escq 0xE2) [] := by decide
theorem test_witness_StepRunsTheRequestAtRp :
    (fed [0x04, 0xE2, 0x07]).fetch = .request (.escq 0xE2) [0x07] ∧
    (fed [0x04, 0xE2, 0x07]).pending = encode (.escq 0xE2) ++ [0x07] := by decide
theorem test_witness_PlacedWordIsRunNext :
    decodeTableWord 8 0x26 = some (.cfgbrd 0 0 0) ∧ 0 < { fed [0x02] with rp := 1 }.rp ∧ 0 < (fed [0x02]).rq.length := by
  decide +kernel
theorem test_witness_IllegalOpByteRaisesIllegalRequest :
    (0x06 : Byte) ∉ Literal.opBytes ∧ (fed [0x06, 0x02]).pending = 0x06 :: [0x02] := by decide
theorem test_witness_IncompleteRequestWaitsForItsBytes :
    (Instr.crc16 [0xAA, 0xBB]).wellFormed = true ∧
    (fed [0x01]).pending = (encode (.crc16 [0xAA, 0xBB])).take 1 ∧
    (fed [0x01, 0x02, 0xAA]).pending = (encode (.crc16 [0xAA, 0xBB])).take 3 ∧ 3 < (encode (.crc16 [0xAA, 0xBB])).length := by
  decide
theorem test_witness_StepHoldsStillOnlyWhenFinishedOrStuck :
    (fed []).Inv ∧ (fed []).finished ∧ (fed [0x03]).Inv ∧ (fed [0x03]).stuck ∧ (fed [0x02]).Inv ∧ ¬ (fed [0x02]).stuck := by
  decide
theorem test_witness_RpOnlyMovesPastTheRequest :
    (fed [0x02]).fetch = .request .crcinit [] ∧ step (fed [0x02]) = .next { fed [0x02] with rp := 1 } ∧
    (fed [0x07]).fetch = .illegalOp 0x07 ∧ step (fed [0x07]) = .next { fed [0x07] with status := 0x03, rp := 1 } :=
  ⟨rfl, rfl, rfl, rfl⟩
theorem test_witness_ResultCodesInFixedPriority :
    (Instr.setpwr 0x88 20 20 0).rejected ∧ (Instr.setpwr 0x88 19 255 0).transmits ∧ (Instr.setpwr 0x88 255 19 0).transmits ∧
    ¬ (Instr.escq 0).rejected ∧ ¬ (Instr.escq 0).transmits ∧
    (fed [0x28, 0x88, 20, 20, 0]).fetch = .request (.setpwr 0x88 20 20 0) [] ∧
    (fed [0x28, 0x88, 19, 255, 0]).fetch = .request (.setpwr 0x88 19 255 0) [] ∧
    (fed [0x04, 0]).fetch = .request (.escq 0) [] ∧ (fed [0x07]).fetch = .illegalOp 0x07 := by
  simp [Instr.rejected, Instr.transmits]; decide
theorem test_witness_WriteAndReadSetsAsTabled :
    exec (.escq 0xE2) (fed []) = .next { fed [] with escf := true, rp := 2 } ∧ ¬ (Instr.escq 0xE2).writesCrc ∧
    exec .crcinit (fed []) = .next { fed [] with rp := 1 } ∧ Instr.crcinit.writesCrc ∧ (∀ b, Instr.crcinit ≠ .escq b) ∧
    (∀ b, Instr.crcinit ≠ .crcupd b) ∧ ¬ (Instr.setpwr 0x88 20 255 0).transmits ∧ (fed [0x07]).fetch = .illegalOp 0x07 :=
  ⟨rfl, id, rfl, trivial, nofun, nofun, by simp [Instr.transmits], rfl⟩
theorem test_witness_EarlierResultsDoNotMatter : (fed [0x02]).fetch = .request .crcinit [] := by decide
theorem test_witness_AppendedBytesDoNotChangeTheRequest :
    (fed [0x02]).fetch = .request .crcinit [] ∧ step (fed [0x02]) = .next { fed [0x02] with rp := 1 } := ⟨rfl, rfl⟩
theorem test_witness_StreamRunsItsRequestsInOrder :
    (∀ i ∈ [Instr.crcinit, .escq 0xE2], i.wellFormed = true) ∧
    (fed [0x02, 0x04, 0xE2]).pending = [Instr.crcinit, .escq 0xE2].flatMap encode ++ [] := by decide
theorem test_witness_StepKeepsRpInStreamAndStatusLegal :
    (fed [0x07]).Inv ∧ step (fed [0x07]) = .next { fed [0x07] with status := 0x03, rp := 1 } := ⟨by decide, rfl⟩
theorem test_witness_StepKeepsTxASequenceOfFrames :
    State.TxIsFrames { fed [0x02] with tx := [0xE2, 0x88] } ∧
    step { fed [0x02] with tx := [0xE2, 0x88] } = .next { fed [0x02] with tx := [0xE2, 0x88], rp := 1 } := by
  refine ⟨⟨[[0xE2, 0x88]], rfl, ?_⟩, rfl⟩
  simp only [List.mem_singleton, forall_eq]
  exact ⟨.frame 0x88 0 0 [], _, rfl, rfl, _, rfl⟩
theorem test_witness_EnvironmentKeepsTheInvariants : (fed [0x02]).Inv ∧ (fed [0x02]).TxIsFrames :=
  ⟨by decide, [], rfl, by simp⟩
theorem test_witness_HostResetLeavesResetState : Instr.crcinit.wellFormed = true := rfl
theorem test_witness_ResetInsideAFrameLeavesAFragment :
    ((on .ok [0x05, 0x88, 0x08, 0x01, 0x00]).fetch = .request (.frame 0x88 0x08 0x01 []) [] ∧
      (Literal.wireOf refParams (.frame 0x88 0x08 0x01 [])).map List.length = some 9) ∧
    ((on .ok [0x26, 0x88, 0x01, 0x02]).fetch = .request (.cfgbrd 0x88 0x01 0x02) [] ∧
      (Literal.wireOf refParams (.cfgbrd 0x88 0x01 0x02)).map List.length = some 11) ∧
    ((on .ok [0x28, 0x88, 19, 20, 0]).fetch = .request (.setpwr 0x88 19 20 0) [] ∧
      (Literal.wireOf refParams (.setpwr 0x88 19 20 0)).map List.length = some 12) ∧
    (on .ok [0x28, 0x88, 20, 20, 0]).fetch = .request (.setpwr 0x88 20 20 0) [] ∧
      Literal.wireOf refParams (.setpwr 0x88 20 20 0) = none := by decide +kernel
theorem test_witness_CrcinitLoadsTheSeed : (fed [0x02, 0x03]).pending = 0x02 :: [0x03] := rfl
theorem test_witness_CrcupdAbsorbsOneByte : (fed [0x03, 0x41]).pending = 0x03 :: 0x41 :: [] := rfl
theorem test_witness_Crc16ComputesTheChecksum :
    (0x00 : Byte).toNat = ([] : List Byte).length ∧ (fed [0x01, 0x00]).pending = 0x01 :: 0x00 :: ([] ++ []) ∧
    (0x02 : Byte).toNat = [(0xAA : Byte), 0xBB].length ∧
    (fed [0x01, 0x02, 0xAA, 0xBB, 0x07]).pending = 0x01 :: 0x02 :: ([0xAA, 0xBB] ++ [0x07]) := by decide
theorem test_witness_ReferenceTableVectors :
    (on .ok []).params = { crcTable := t8408, escUniform := true, escCrc := false } ∧ (on .ok []).busTakesNext := ⟨rfl, rfl⟩
theorem test_witness_EscapeInsertsOneMarkerPerControlCode :
    (0xE0 : Byte) ∈ Literal.controlCodes ∧ (0xE3 : Byte) ∈ Literal.controlCodes ∧
    (0xDF : Byte) ∉ Literal.controlCodes ∧ (0xE4 : Byte) ∉ Literal.controlCodes := by decide
theorem test_witness_EscqWritesTheClassification : (fed [0x04, 0xE3]).pending = 0x04 :: 0xE3 :: [] := rfl
theorem test_witness_BusWriteAppendsAllOrAProperPrefix :
    (on .ok []).busAnswer [0xE2] = .ok ∧ (on (.fault 0) []).busAnswer [0xE2] = .fault 0 ∧
    (on (.fault 1) []).busAnswer [0xE2, 0x88] = .fault 1 ∧ (on (.fault 2) []).busAnswer [0xE2, 0x88] = .ok := by
  decide
theorem test_witness_FrameBuildsAndTransmits :
    (0x01 : Byte).toNat = [(0xE0 : Byte)].length ∧
    (fed [0x05, 0x89, 0x09, 0x30, 0x01, 0xE0]).pending = 0x05 :: 0x89 :: 0x09 :: 0x30 :: 0x01 :: ([0xE0] ++ []) := by decide
theorem test_witness_CfgbrdTransmitsSetBoardConfig :
    (fed [0x26, 0x88, 0x01, 0x02]).pending = 0x26 :: 0x88 :: 0x01 :: 0x02 :: [] := rfl
theorem test_witness_SetpwrValidatesThenTransmits :
    (19 < (20 : Byte).toNat ∧ 19 < (255 : Byte).toNat) ∧ (19 : Byte).toNat ≤ 19 ∧
    (fed [0x28, 0x88, 20, 20, 5]).pending = 0x28 :: 0x88 :: 20 :: 20 :: 5 :: [] := by decide
theorem test_witness_OutOfRangeOnlyFromSetpwrWithTwoBadLevels :
    19 < (20 : Byte).toNat ∧ exec (.setpwr 0x88 20 20 5) (fed []) = .next { fed [] with status := 0x01, rp := 5 } :=
  ⟨by decide, rfl⟩
theorem test_witness_FrameOperationsCompleteOnAWorkingBus :
    (on .ok []).busTakesNext ∧ ((19 : Byte).toNat ≤ 19 ∨ (255 : Byte).toNat ≤ 19) := ⟨rfl, by decide⟩
theorem test_witness_TransmitFaultLeavesTheFirstBytes :
    (Literal.wireOf refParams (.cfgbrd 0x88 0x01 0x02)).map List.length = some 11 ∧
    (Literal.wireOf refParams (.setpwr 0x88 255 19 0)).map List.length = some 12 ∧
    (Literal.wireOf refParams (.frame 0 0 0 [])).map List.length = some 9 ∧
    (on (.fault 0) []).txScript = .fault 0 :: [] ∧ (on (.fault 10) []).txScript = .fault 10 :: [] := by decide +kernel
theorem test_witness_WireLengthFormulaAndBounds :
    (List.replicate 255 (0xE0 : Byte)).length ≤ 255 ∧ (inRange 19 = true ∨ inRange 0xE0 = true) := by decide +kernel
theorem test_witness_TransmittedCommandsReadBack :
    (on .ok []).busTakesNext ∧ (on .ok []).params.escUniform = true ∧ ((0 : Byte).toNat ≤ 19 ∨ (0xE1 : Byte).toNat ≤ 19) :=
  ⟨rfl, rfl, by decide⟩
theorem test_witness_ScanningReceiverFindsTheEnd :
    (0x88 : Byte) ∉ Literal.controlCodes ∧ (0x08 : Byte) ∉ Literal.controlCodes ∧ (0x01 : Byte) ∉ Literal.controlCodes ∧
    ∀ b ∈ crcBytes (frameCrc t8408 0x88 0x08 0x01 []), b ∉ Literal.controlCodes := by decide +kernel
theorem test_witness_ScanningReceiverFailsOnRawChecksumControlCodes :
    (∀ i < [(0 : Byte), 0, 0x6B].length, i ∈ setpwrChk true) ∧
    ∃ b ∈ crcBytes (frameCrc t8408 0x88 0x0B 0x28 [0, 0, 0x6B]), b ∈ Literal.controlCodes := by decide +kernel
theorem test_witness_StartUpRequestsAreNeverOutOfRange :
    HostAction.request (.setpwr 0x89 0 0 7) ∈ init4 { none := 0, w1800 := 1, w2500 := 2, w3200 := 3, w3700 := 4 } 7
        ++ init5 { none := 0, w1800 := 1, w2500 := 2, w3200 := 3, w3700 := 4 } 7 ∧
    ∃ t, exec (.setpwr 0x89 0 0 7) (on .ok []) = .next t := ⟨by decide, _, rfl⟩

end Sys2Proof.Tests
end

/-! ## The decoder read backwards -/

namespace Sys2Proof

/-- Counted data that was read fits its count byte, and the bytes were its encoding and the rest. -/
theorem encodeCounted_of_readCounted {bs d rest : List Byte} (h : readCounted bs = some (d, rest)) :
    countFits d = true ∧ bs = encodeCounted d ++ rest := by
  cases bs with
  | nil => cases h
  | cons n bs =>
    obtain ⟨rfl, hl⟩ := takeBytes_eq_some.1 h
    have hn := n.isLt
    exact ⟨countFits_iff.2 (by omega), by simp [encodeCounted, hl]⟩

/-- A request comes only from data that was read. -/
theorem requestOr_eq_request {f : List Byte → Instr} {r : Option (List Byte × List Byte)} {i : Instr} {rest : List Byte} :
    requestOr f r = .request i rest ↔ ∃ d, r = some (d, rest) ∧ f d = i := by
  cases r <;> simp [requestOr, Prod.ext_iff, and_comm]

/-- The operand bytes of a request that was read are the encoder's, and the request is well formed. -/
theorem encodeOperands_of_decodeOperands {o : Op} {bs : List Byte} {i : Instr} {rest : List Byte}
    (h : decodeOperands o bs = .request i rest) :
    i.wellFormed = true ∧ i.op = o ∧ bs = encodeOperands i ++ rest := by
  unfold decodeOperands at h
  split at h
  case h_1 | h_5 =>
    obtain ⟨d, hd, rfl⟩ := requestOr_eq_request.1 h
    obtain ⟨hfit, rfl⟩ := encodeCounted_of_readCounted hd
    exact ⟨hfit, rfl, rfl⟩
  case h_8 => cases h
  all_goals
    cases h
    exact ⟨rfl, rfl, rfl⟩

/-- Operands are never the reason for an illegal request: the op byte alone is (spec 30_encoding.md R42). -/
theorem decodeOperands_ne_illegalOp (o : Op) (bs : List Byte) (op : Byte) : decodeOperands o bs ≠ .illegalOp op := by
  have hr : ∀ f r, requestOr f r ≠ .illegalOp op := by
    intro f r
    cases r <;> simp [requestOr]
  unfold decodeOperands
  split
  case h_1 | h_5 => exact hr _ _
  all_goals nofun

/-- The decoder accepts a well-formed request's own bytes and nothing else (spec 30_encoding.md R38, R42). -/
theorem encode_of_decode {bs : List Byte} {i : Instr} {rest : List Byte} (h : decode bs = .request i rest) :
    i.wellFormed = true ∧ bs = encode i ++ rest := by
  cases bs with
  | nil => cases h
  | cons op bs =>
    simp only [decode] at h
    cases ho : Op.ofByte op with
    | none => simp [ho] at h
    | some o =>
      obtain ⟨hwf, hop, rfl⟩ := encodeOperands_of_decodeOperands (by simpa [ho] using h)
      exact ⟨hwf, by simp [encode, hop, Op.byte_of_ofByte ho]⟩

/-- An illegal op byte is the first byte that was read. -/
theorem eq_cons_of_decode_illegalOp {bs : List Byte} {op : Byte} (h : decode bs = .illegalOp op) :
    ∃ rest, bs = op :: rest := by
  cases bs with
  | nil => cases h
  | cons b bs =>
    simp only [decode] at h
    cases ho : Op.ofByte b with
    | none => exact ⟨bs, by simpa [ho] using h⟩
    | some o => exact absurd (by simpa [ho] using h) (decodeOperands_ne_illegalOp o bs op)

/-- A request's bytes are as many as its format says (spec 30_encoding.md R38). -/
theorem length_encode (i : Instr) : (encode i).length = i.size := by
  cases i with
  | crc16 d => exact (Laws.RequestShape.crc16 d).2
  | frame dest len cmd d => exact (Laws.RequestShape.frame dest len cmd d).2
  | _ => rfl

end Sys2Proof

/-! ## What a step can do -/

namespace Sys2Proof.Machine

/-- A step executes the request at `rp`, raises `IllegalRequest` (spec 60_exceptions.md R88), or waits (R89). -/
theorem step_cases {s t : State} (h : step s = .next t) :
    (∃ i rest, s.fetch = .request i rest ∧ exec i s = .next t) ∨
    (∃ op, s.fetch = .illegalOp op ∧ t = s.raise .illegalRequest 1) ∨
    ((s.fetch = .incomplete ∨ s.fetch = .noRequest) ∧ t = s) := by
  cases hf : s.fetch with
  | request i rest => exact .inl ⟨i, rest, rfl, by simpa [step, hf] using h⟩
  | illegalOp op =>
    rw [step_of_illegalOp hf] at h
    cases h
    exact .inr (.inl ⟨op, rfl, rfl⟩)
  | incomplete =>
    rw [step_of_stuck hf] at h
    cases h
    exact .inr (.inr ⟨.inl rfl, rfl⟩)
  | noRequest =>
    rw [step_of_noRequest hf] at h
    cases h
    exact .inr (.inr ⟨.inr rfl, rfl⟩)

/-- Every request ends with a result code and `rp` past its own bytes; what it did before that left `rp`, the request
stream and the parameters as they were (spec 60_exceptions.md R85; 10_state.md R17, R22). -/
theorem exec_endsRequest (i : Instr) (s : State) :
    ∃ u r, exec i s = .next (State.endRequest r (encode i).length u) ∧
      u.rp = s.rp ∧ u.rq = s.rq ∧ u.params = s.params := by
  rw [length_encode]
  cases i with
  | setpwr addr l1 l2 hb =>
    by_cases h : inRange l1 = true ∨ inRange l2 = true
    · exact ⟨_, _, execSetpwr_accepted h, rfl, rfl, rfl⟩
    · obtain ⟨h1, h2⟩ : inRange l1 = false ∧ inRange l2 = false := by simpa using h
      exact ⟨s, .outOfRange, execSetpwr_rejected h1 h2, rfl, rfl, rfl⟩
  | _ => exact ⟨_, _, rfl, rfl, rfl, rfl⟩

/-! ## The invariant `State.Inv` -/

/-- The four result codes need two bits (spec 10_state.md R13). -/
theorem ResultCode.code_high_bits (r : ResultCode) : r.code.extractLsb' 2 6 = 0 := by
  cases r <;> decide

/-- A request whose bytes are all there ends in a good state. -/
theorem State.inv_endRequest {r : ResultCode} {n : Nat} {s : State} (h : s.rp + n ≤ s.rq.length) :
    (s.endRequest r n).Inv :=
  ⟨h, r.code_high_bits⟩

/-- Bytes that are pending at `rp` end within the stream. -/
theorem State.rp_add_length_le {s : State} {bytes rest : List Byte} (h : s.pending = bytes ++ rest) (hne : bytes ≠ []) :
    s.rp + bytes.length ≤ s.rq.length := by
  have hlen : s.rq.length - s.rp = bytes.length + rest.length := by
    simpa [State.pending] using congrArg List.length h
  have hpos := List.length_pos_iff.2 hne
  omega

/-- A step keeps `State.Inv`: a request that is executed lies within the stream, and its end writes one of the four codes. -/
theorem step_keeps_inv {s t : State} (hs : s.Inv) (h : step s = .next t) : t.Inv := by
  obtain ⟨i, rest, hf, hexec⟩ | ⟨op, hf, rfl⟩ | ⟨-, rfl⟩ := step_cases h
  · obtain ⟨u, r, hu, hrp, hrq, -⟩ := exec_endsRequest i s
    obtain rfl : t = u.endRequest r (encode i).length := by simpa [hu, eq_comm] using hexec
    have hle := State.rp_add_length_le (encode_of_decode hf).2 (List.cons_ne_nil _ _)
    exact State.inv_endRequest (by rwa [hrp, hrq])
  · obtain ⟨rest, hp⟩ := eq_cons_of_decode_illegalOp hf
    exact State.inv_endRequest (State.rp_add_length_le (bytes := [op]) hp (List.cons_ne_nil _ _))
  · exact hs

/-- Settles O20: `State.Inv` is kept by each of the three things a step can do. -/
theorem stepKeepsRpInStreamAndStatusLegal : Obligations.StepKeepsRpInStreamAndStatusLegal :=
  fun _ _ => step_keeps_inv

/-! ## The state after reset -/

/-- An empty `TX` is the sequence of no frames. -/
theorem State.txIsFrames_of_tx_nil {s : State} (h : s.tx = []) : s.TxIsFrames :=
  ⟨[], h, nofun⟩

/-- Settles O19: the stream is empty with `rp` at its start, `STATUS` is 0x00 and nothing was transmitted. -/
theorem resetIsAGoodState : Obligations.ResetIsAGoodState :=
  ⟨⟨Nat.le_refl 0, by decide⟩, State.txIsFrames_of_tx_nil rfl⟩

/-- CRCINIT where `CRC` already holds the seed, as after reset, changes no value of `CRC` that a CRCUPD leaves
(spec 10_state.md R21). -/
theorem exec_crcupd_after_crcinit (b : Byte) {s : State} (h : s.crc = crcSeed) :
    ∃ t u v, exec (.crcupd b) s = .next t ∧ exec .crcinit s = .next u ∧ exec (.crcupd b) u = .next v ∧ t.crc = v.crc :=
  ⟨_, _, _, rfl, rfl, rfl, by simp [h]⟩

/-- Settles O23: the six values are those of `State.reset`, and its `CRC` is the seed of every checksum. -/
theorem resetStateAsStated : Obligations.ResetStateAsStated :=
  ⟨rfl, rfl, rfl, rfl, rfl, rfl, checksum_nil, fun b => exec_crcupd_after_crcinit b rfl⟩

end Sys2Proof.Machine

/-! ## What a step appends to `TX` -/

namespace Sys2Proof.Machine

/-- Every request leaves the parameters as they were (spec 00_scope.md R6). -/
theorem exec_keeps_params {i : Instr} {s t : State} (h : exec i s = .next t) : t.params = s.params := by
  obtain ⟨u, r, hu, -, -, hparams⟩ := exec_endsRequest i s
  obtain rfl : t = u.endRequest r (encode i).length := by simpa [hu, eq_comm] using h
  exact hparams

/-- Every step leaves the parameters as they were. -/
theorem step_keeps_params {s t : State} (h : step s = .next t) : t.params = s.params := by
  obtain ⟨i, rest, -, hexec⟩ | ⟨op, -, rfl⟩ | ⟨-, rfl⟩ := step_cases h
  · exact exec_keeps_params hexec
  · rfl
  · rfl

/-- Sending a frame writes out all of it with OK, or its first bytes with `TransmitFault`, by the transport's answer
(spec 42_frame.md R71). -/
theorem State.sendFrame_wrote (dest len cmd : Byte) (p : List Byte) (chk : List Nat) (size : Nat) (s : State) :
    Literal.wrote (frameWire s.params.crcTable s.params.escCrc dest len cmd p chk) s
      (s.sendFrame dest len cmd p chk size) := by
  cases ha : s.busAnswer (frameWire s.params.crcTable s.params.escCrc dest len cmd p chk) with
  | ok => exact .inl ⟨by rw [State.sendFrame_status, ha]; rfl, by rw [State.sendFrame_tx, ha]; rfl⟩
  | fault k =>
    obtain ⟨-, hk⟩ := boundAnswer_eq_fault.1 ha
    exact .inr ⟨k, hk, by rw [State.sendFrame_status, ha]; rfl, by rw [State.sendFrame_tx, ha]; rfl⟩

/-- A request with a wire frame writes out that frame, whole or cut off. -/
theorem wrote_of_exec {i : Instr} {w : List Byte} {s t : State} (hw : Literal.wireOf s.params i = some w)
    (h : exec i s = .next t) : Literal.wrote w s t := by
  obtain ⟨dest, len, cmd, p, chk, rfl, hsend⟩ := exec_of_wireOf hw
  obtain rfl : t = s.sendFrame dest len cmd p chk (encode i).length := by simpa [hsend s rfl, eq_comm] using h
  exact s.sendFrame_wrote ..

/-- A request without a wire frame appends nothing to `TX`. -/
theorem tx_of_exec_of_wireOf_none {i : Instr} {s t : State} (hw : Literal.wireOf s.params i = none)
    (h : exec i s = .next t) : t.tx = s.tx := by
  obtain ⟨u, hu, htx, -⟩ := exec_of_wireOf_none hw
  obtain rfl : t = u := by simpa [hu, eq_comm] using h
  exact htx

/-- A step appends nothing to `TX`, or the wire frame of the request it executes, whole or cut off. -/
theorem step_tx {s t : State} (h : step s = .next t) :
    t.tx = s.tx ∨ ∃ i rest w, s.fetch = .request i rest ∧ i.wellFormed = true ∧ Literal.wireOf s.params i = some w ∧
      Literal.wrote w s t := by
  obtain ⟨i, rest, hf, hexec⟩ | ⟨op, -, rfl⟩ | ⟨-, rfl⟩ := step_cases h
  · cases hw : Literal.wireOf s.params i with
    | none => exact .inl (tx_of_exec_of_wireOf_none hw hexec)
    | some w => exact .inr ⟨i, rest, w, hf, (encode_of_decode hf).1, hw, wrote_of_exec hw hexec⟩
  · exact .inl rfl
  · exact .inl rfl

/-- What was written out is the frame, or its first bytes, at the end of `TX`. -/
theorem tx_append_prefix_of_wrote {w : List Byte} {s t : State} (h : Literal.wrote w s t) :
    ∃ piece, piece <+: w ∧ t.tx = s.tx ++ piece := by
  obtain ⟨-, htx⟩ | ⟨k, -, -, htx⟩ := h
  · exact ⟨w, List.prefix_rfl, htx⟩
  · exact ⟨w.take k, List.take_prefix k w, htx⟩

/-- `State.TxIsFrames` speaks of `TX` and the parameters only. -/
theorem State.TxIsFrames.congr {s t : State} (hs : s.TxIsFrames) (htx : t.tx = s.tx) (hp : t.params = s.params) :
    t.TxIsFrames := by
  unfold State.TxIsFrames
  rwa [htx, hp]

/-- One more wire frame at the end, whole or cut off, keeps `TX` a sequence of such pieces. -/
theorem State.TxIsFrames.append {s t : State} {i : Instr} {w piece : List Byte} (hs : s.TxIsFrames)
    (hwf : i.wellFormed = true) (hw : Literal.wireOf s.params i = some w) (hpiece : piece <+: w)
    (htx : t.tx = s.tx ++ piece) (hp : t.params = s.params) : t.TxIsFrames := by
  obtain ⟨pieces, hflat, hall⟩ := hs
  refine ⟨pieces ++ [piece], by simp [htx, hflat], ?_⟩
  rw [hp]
  intro q hq
  obtain hq | rfl : q ∈ pieces ∨ q = piece := by simpa using hq
  · exact hall q hq
  · exact ⟨i, w, hwf, hw, hpiece⟩

/-- A step keeps `State.TxIsFrames`: what it appends is one more piece, or nothing. -/
theorem step_keeps_txIsFrames {s t : State} (hs : s.TxIsFrames) (h : step s = .next t) : t.TxIsFrames := by
  obtain htx | ⟨i, rest, w, -, hwf, hw, hwrote⟩ := step_tx h
  · exact hs.congr htx (step_keeps_params h)
  · obtain ⟨piece, hpiece, htx⟩ := tx_append_prefix_of_wrote hwrote
    exact hs.append hwf hw hpiece htx (step_keeps_params h)

/-- Settles O21: a step appends nothing or a piece of the executed request's own wire frame. -/
theorem stepKeepsTxASequenceOfFrames : Obligations.StepKeepsTxASequenceOfFrames :=
  fun _ _ h => ⟨fun hs => step_keeps_txIsFrames hs h, step_tx h⟩

end Sys2Proof.Machine

/-! ## The decoder on a request's own bytes -/

namespace Sys2Proof

/-- A well-formed request is read back from its bytes, whatever follows them (spec 30_encoding.md R38, R39, R41). -/
theorem decode_encode {i : Instr} (rest : List Byte) (h : i.wellFormed = true) :
    decode (encode i ++ rest) = .request i rest := by
  have hop : decode (encode i ++ rest) = decodeOperands i.op (encodeOperands i ++ rest) := by
    simp [encode, decode]
  rw [hop]
  cases i with
  | crc16 d => exact requestOr_eq_request.2 ⟨d, readCounted_encodeCounted rest h, rfl⟩
  | frame dest len cmd d => exact requestOr_eq_request.2 ⟨d, readCounted_encodeCounted rest h, rfl⟩
  | _ => rfl

end Sys2Proof

/-! ## The request at `rp` -/

namespace Sys2Proof.Machine

/-- The decoder reads `i` at `rp` exactly when `i` is well formed and its bytes are the next ones. -/
theorem State.fetch_eq_request {s : State} {i : Instr} {rest : List Byte} :
    s.fetch = .request i rest ↔ i.wellFormed = true ∧ s.pending = encode i ++ rest := by
  constructor
  · exact encode_of_decode
  · rintro ⟨hwf, hp⟩
    rw [State.fetch, hp]
    exact decode_encode rest hwf

/-- A whole request at `rp` is what the step executes (spec 20_memory.md R33). -/
theorem step_of_request {s : State} {i : Instr} {rest : List Byte} (h : s.fetch = .request i rest) :
    step s = exec i s := by
  simp [step, h]

/-- Settles O7: a step is `exec` of what is fetched, and a pending encoding is fetched as its request. -/
theorem stepRunsTheRequestAtRp : Obligations.StepRunsTheRequestAtRp :=
  ⟨fun _ _ _ => step_of_request, fun _ _ _ hwf hp => step_of_request (State.fetch_eq_request.2 ⟨hwf, hp⟩)⟩

/-- The bytes of a pending request end within the stream. -/
theorem State.rp_add_length_encode_le {s : State} {i : Instr} {rest : List Byte} (h : s.pending = encode i ++ rest) :
    s.rp + (encode i).length ≤ s.rq.length :=
  State.rp_add_length_le h (List.cons_ne_nil _ _)

/-! ## `MemRead` -/

/-- `MemRead` is defined exactly when its bytes are there (spec 20_memory.md R23). -/
theorem State.memRead_eq_none {s : State} {a n : Nat} : s.memRead a n = none ↔ s.rq.length < a + n := by
  simp [State.memRead]

/-- Byte `k` of what `MemRead` answers is `RQ[a + k]`. -/
theorem State.getElem?_of_memRead {s : State} {a n k : Nat} {bytes : List Byte} (h : s.memRead a n = some bytes)
    (hk : k < n) : bytes[k]? = s.rq[a + k]? := by
  obtain ⟨-, rfl⟩ : a + n ≤ s.rq.length ∧ (s.rq.drop a).take n = bytes := by
    simpa [State.memRead] using h
  rw [List.getElem?_take_of_lt hk, List.getElem?_drop]

/-- `MemRead` at `rp` of a pending request's length gives the request's bytes. -/
theorem State.memRead_of_pending {s : State} {i : Instr} {rest : List Byte} (h : s.pending = encode i ++ rest) :
    s.memRead s.rp (encode i).length = some (encode i) := by
  have hle := State.rp_add_length_encode_le h
  rw [State.memRead_rp (by simp [h]) (by omega), h, List.take_left]

/-- Settles O6: from the bound and the bytes of `MemRead`, and from the fetched request being pending. -/
theorem memReadGivesTheRequest : Obligations.MemReadGivesTheRequest :=
  ⟨fun _ _ _ => State.memRead_eq_none, fun _ _ _ _ _ => State.getElem?_of_memRead,
    fun _ _ _ hf => State.memRead_of_pending (State.fetch_eq_request.1 hf).2⟩

/-! ## Bytes the host appends -/

/-- Appended bytes come after what is pending, where `rp` is within the stream. -/
theorem State.pending_hostAppend {s : State} (bytes : List Byte) (h : s.rp ≤ s.rq.length) :
    (s.hostAppend bytes).pending = s.pending ++ bytes := by
  simp [State.pending, List.drop_append_of_le_length h]

/-- Appended bytes leave the request at `rp` as it is and come after the bytes that follow it. -/
theorem State.fetch_hostAppend {s : State} {i : Instr} {rest : List Byte} (bytes : List Byte)
    (h : s.fetch = .request i rest) : (s.hostAppend bytes).fetch = .request i (rest ++ bytes) := by
  obtain ⟨hwf, hp⟩ := State.fetch_eq_request.1 h
  have hle := State.rp_add_length_encode_le hp
  refine State.fetch_eq_request.2 ⟨hwf, ?_⟩
  rw [State.pending_hostAppend bytes (by omega), hp, List.append_assoc]

/-- What a request does is the same before and after bytes are appended: no operation reads `RQ` but for its own bytes
(spec 20_memory.md R24). -/
theorem exec_hostAppend {i : Instr} {s t : State} (bytes : List Byte) (h : exec i s = .next t) :
    exec i (s.hostAppend bytes) = .next (t.hostAppend bytes) := by
  cases i with
  | setpwr addr l1 l2 hb =>
    by_cases hr : inRange l1 = true ∨ inRange l2 = true
    · cases (execSetpwr_accepted hr).symm.trans h
      exact execSetpwr_accepted hr
    · obtain ⟨h1, h2⟩ : inRange l1 = false ∧ inRange l2 = false := by simpa using hr
      cases (execSetpwr_rejected h1 h2).symm.trans h
      exact execSetpwr_rejected h1 h2
  | _ =>
    cases h
    rfl

/-- Settles O17: the appended bytes change neither the request that is fetched nor what it does. -/
theorem appendedBytesDoNotChangeTheRequest : Obligations.AppendedBytesDoNotChangeTheRequest := by
  intro s t i rest bytes hf hstep
  rw [step_of_request (State.fetch_hostAppend bytes hf)]
  exact exec_hostAppend bytes (step_of_request hf ▸ hstep)

/-! ## A sequence of requests -/

/-- A pending request is executed to its end: what follows its bytes is then pending, and `rp` is within the stream. -/
theorem exec_of_pending {i : Instr} {s : State} {rest : List Byte} (h : s.pending = encode i ++ rest) :
    ∃ t, exec i s = .next t ∧ t.pending = rest ∧ t.rp ≤ t.rq.length := by
  obtain ⟨u, r, hu, hrp, hrq, -⟩ := exec_endsRequest i s
  have hpend : (u.endRequest r (encode i).length).pending = s.pending.drop (encode i).length := by
    simp [State.pending, hrp, hrq]
  refine ⟨_, hu, by rw [hpend, h, List.drop_left], ?_⟩
  simpa [hrp, hrq] using State.rp_add_length_encode_le h

/-- A run is finished where nothing is pending and `rp` is within the stream (spec 70_reset_and_hazards.md R120). -/
theorem State.finished_of_pending_nil {s : State} (h : s.pending = []) (hle : s.rp ≤ s.rq.length) : s.finished :=
  Nat.le_antisymm hle (List.drop_eq_nil_iff.1 h)

/-- A request sequence is executed by executing its first request, then the others. -/
theorem execAll_cons {i : Instr} {s t : State} (is : List Instr) (h : exec i s = .next t) :
    execAll (i :: is) s = execAll is t := by
  simp [execAll, h]

/-- As many steps as there are pending requests do what the requests do in their order, and end at the bytes after them. -/
theorem run_of_pending {is : List Instr} {s : State} {rest : List Byte} (hwf : ∀ i ∈ is, i.wellFormed = true)
    (hp : s.pending = is.flatMap encode ++ rest) :
    ∃ t, Host.Core.run Sys2Proof.core is.length s = .next t ∧ execAll is s = .next t ∧ t.pending = rest ∧
      (s.rp ≤ s.rq.length → t.rp ≤ t.rq.length) := by
  induction is generalizing s with
  | nil => exact ⟨s, rfl, rfl, hp, id⟩
  | cons i is ih =>
    obtain ⟨hi, his⟩ := List.forall_mem_cons.1 hwf
    replace hp : s.pending = encode i ++ (is.flatMap encode ++ rest) := by simpa using hp
    obtain ⟨u, hexec, hpu, hle⟩ := exec_of_pending hp
    have hstep : step s = .next u := (step_of_request (State.fetch_eq_request.2 ⟨hi, hp⟩)).trans hexec
    obtain ⟨t, hrun, hall, hpt, hlet⟩ := ih his hpu
    exact ⟨t, (run_succ is.length hstep).trans hrun, (execAll_cons is hexec).trans hall, hpt, fun _ => hlet hle⟩

/-- Settles O18: by induction over the requests, each fetched and executed by one step; with nothing left pending the run is
finished. -/
theorem streamRunsItsRequestsInOrder : Obligations.StreamRunsItsRequestsInOrder := by
  intro is s rest hwf hp
  obtain ⟨t, hrun, hall, hpt, hle⟩ := run_of_pending hwf hp
  exact ⟨t, hrun, hall, hpt, fun hnil hs => State.finished_of_pending_nil (hpt.trans hnil) (hle hs)⟩

end Sys2Proof.Machine

/-! ## The reference receiver on wire frames (spec 41_escape.md R67) -/

namespace Sys2Proof.Machine

/-- An encoded sequence is read back as many items, whatever follows it. -/
theorem readItems_escEncodeAll (p rest : List Byte) :
    readItems p.length (escEncodeAll p ++ rest) = some (p, rest) := by
  induction p with
  | nil => rfl
  | cons b p ih => simp [readItems, readItem_escEncode, ih]

/-- The checksum bytes are read back at both settings of `ESC_CRC`. -/
theorem readCrc_wireCrc (escCrc : Bool) (c : Word) (rest : List Byte) :
    readCrc escCrc (wireCrc escCrc c ++ rest) = some (crcBytes c, rest) := by
  cases escCrc with
  | true => exact readItems_escEncodeAll (crcBytes c) rest
  | false => exact takeBytes_append (crcBytes c) rest

/-- A word is its high byte followed by its low byte. -/
theorem hi8_append_lo8 (c : Word) : hi8 c ++ lo8 c = c :=
  (BitVec.extractLsb'_append_extractLsb'_eq_extractLsb' rfl).trans BitVec.extractLsb'_eq_self

/-- What the receiver is to read from a frame: the operands, the block's own address and the frame's checksum. -/
def receivedFrame (T : CrcTable) (dest len cmd : Byte) (p : List Byte) : Received :=
  { dest := dest, len := len, src := srcAddr, cmd := cmd, payload := p, crc := frameCrc T dest len cmd p }

/-- A frame whose payload is checked throughout is read back whole by a receiver that knows the payload count. -/
theorem receive_frameWire (T : CrcTable) (escCrc : Bool) (dest len cmd : Byte) {p : List Byte} {chk : List Nat}
    (rest : List Byte) (h : ∀ i < p.length, i ∈ chk) :
    receive escCrc p.length (frameWire T escCrc dest len cmd p chk ++ rest) =
      some (receivedFrame T dest len cmd p, rest) := by
  simp [frameWire, receive, wireBody_checked p h, readItems_escEncodeAll, readCrc_wireCrc, crcBytes, hi8_append_lo8,
    receivedFrame]

/-- The checksum of a frame that was read back matches: both ends take it over the same logical frame
(spec 42_frame.md R69). -/
theorem crcMatches_receivedFrame (T : CrcTable) (dest len cmd : Byte) (p : List Byte) :
    (receivedFrame T dest len cmd p).crcMatches T = true :=
  beq_self_eq_true (frameCrc T dest len cmd p)

/-- A transport that takes the frame has all of it at the end of `TX`. -/
theorem State.sendFrame_tx_of_busTakesNext {s : State} (dest len cmd : Byte) (p : List Byte) (chk : List Nat) (size : Nat)
    (h : s.busTakesNext) :
    (s.sendFrame dest len cmd p chk size).tx =
      s.tx ++ frameWire s.params.crcTable s.params.escCrc dest len cmd p chk := by
  simp [State.busAnswer, h, bytesSent]

/-- What a working bus carries for a frame checked throughout is read back as that frame, with nothing left over. -/
theorem State.sendFrame_readsBack {s : State} (dest len cmd : Byte) {p : List Byte} {chk : List Nat} (size : Nat)
    (hbus : s.busTakesNext) (hchk : ∀ i < p.length, i ∈ chk) :
    ∃ w, (s.sendFrame dest len cmd p chk size).tx = s.tx ++ w ∧
      receive s.params.escCrc p.length w = some (receivedFrame s.params.crcTable dest len cmd p, []) :=
  ⟨_, State.sendFrame_tx_of_busTakesNext dest len cmd p chk size hbus,
    by simpa using receive_frameWire s.params.crcTable s.params.escCrc dest len cmd [] hchk⟩

/-- With `ESC_UNIFORM` true CFGBRD checks both profile bytes (spec 43_commands.md R76). -/
theorem mem_cfgbrdChk_true : ∀ i < 2, i ∈ cfgbrdChk true := by decide

/-- With `ESC_UNIFORM` true SETPWR checks both levels and the heartbeat (spec 43_commands.md R78). -/
theorem mem_setpwrChk_true : ∀ i < 3, i ∈ setpwrChk true := by decide

/-- Settles O47: at `ESC_UNIFORM` true both builders send a frame checked throughout, which the receiver reads back. -/
theorem transmittedCommandsReadBack : Obligations.TransmittedCommandsReadBack := by
  intro s hbus huniform
  refine ⟨fun addr p1 p2 => ?_, fun addr l1 l2 hb hl => ?_⟩
  · obtain ⟨w, htx, hread⟩ := State.sendFrame_readsBack addr lenSetBoardConfig cmdSetBoardConfig (p := [p1, p2])
      (chk := cfgbrdChk s.params.escUniform) 4 hbus (huniform ▸ mem_cfgbrdChk_true)
    exact ⟨_, w, _, 2, rfl, htx, rfl, hread, rfl, rfl, rfl, rfl, rfl, crcMatches_receivedFrame ..⟩
  · obtain ⟨w, htx, hread⟩ := State.sendFrame_readsBack addr lenSetPwrLevels cmdSetPwrLevels (p := [l1, l2, hb])
      (chk := setpwrChk s.params.escUniform) 5 hbus (huniform ▸ mem_setpwrChk_true)
    have hexec := execSetpwr_accepted (addr := addr) (hb := hb) (s := s) (by simpa only [inRange_iff] using hl)
    exact ⟨_, w, _, 3, hexec, htx, rfl, hread, rfl, rfl, rfl, rfl, rfl, crcMatches_receivedFrame ..⟩

end Sys2Proof.Machine

/-! ## Requests and their bytes (spec 30_encoding.md) -/

namespace Sys2Proof

/-- Settles O1: each operand is read from where it was written, the data of formats V and F by their count byte. -/
theorem decodeOfEncodeIsTheRequest : Obligations.DecodeOfEncodeIsTheRequest :=
  fun _ rest => decode_encode rest

/-- Settles O2: what the decoder read of each part is what the encoder writes for it. -/
theorem decodedBytesAreTheEncoding : Obligations.DecodedBytesAreTheEncoding :=
  fun _ _ _ => encode_of_decode

/-- No operation is selected exactly by the bytes that are not in the op map (R41). -/
theorem Op.ofByte_eq_none {b : Byte} : Op.ofByte b = none ↔ b ∉ Literal.opBytes := by
  simp [Op.ofByte, Op.all, Op.byte, Literal.opBytes, @eq_comm _ b]

/-- Whatever follows, the decoder rejects exactly the op bytes outside the op map (R42). -/
theorem decode_eq_illegalOp {op : Byte} {rest : List Byte} :
    decode (op :: rest) = .illegalOp op ↔ op ∉ Literal.opBytes := by
  rw [← Op.ofByte_eq_none]
  cases ho : Op.ofByte op with
  | none => simp [decode, ho]
  | some o => simp [decode, ho, decodeOperands_ne_illegalOp]

/-- All but seven of the 256 byte values are outside the op map (R42). -/
theorem length_filter_notMem_opBytes :
    ((List.range 256).filter fun n => decide (BitVec.ofNat 8 n ∉ Literal.opBytes)).length = 249 := by
  decide +kernel

/-- Settles O5: legality is membership in the op map, and the count is the map's complement. -/
theorem otherOpBytesAreIllegal : Obligations.OtherOpBytesAreIllegal :=
  ⟨fun _ _ => decode_eq_illegalOp, by simpa only [decode_eq_illegalOp] using length_filter_notMem_opBytes⟩

/-- Settles O3: the decoder evaluated on the seven words. -/
theorem writtenOutWordsDecode : Obligations.WrittenOutWordsDecode :=
  ⟨rfl, rfl, rfl, rfl, rfl, rfl, rfl⟩

/-- A request has at least its op byte, and at most `NMAX + 5` bytes where its data fits the count byte
(spec 20_memory.md R29). -/
theorem Instr.size_bounds {i : Instr} (h : i.wellFormed = true) : 1 ≤ i.size ∧ i.size ≤ nmax + 5 := by
  cases i with
  | crc16 d | frame _ _ _ d =>
    have hd : d.length ≤ 255 := countFits_iff.1 h
    simp only [Instr.size, nmax]
    omega
  | _ => simp [Instr.size, nmax]

/-- Settles O4: the layouts are the encoder's own, and the lengths are those of the formats. -/
theorem requestLayoutAsTabled : Obligations.RequestLayoutAsTabled :=
  ⟨fun _ => rfl, rfl, fun _ => rfl, fun _ => rfl, fun _ _ _ _ => rfl, fun _ _ _ => rfl, fun _ _ _ _ => rfl,
    fun i h => length_encode i ▸ Instr.size_bounds h⟩

end Sys2Proof

/-! ## `rp`, and the host's request sequences -/

namespace Sys2Proof.Machine

/-- Every request moves `rp` on by its own length, whatever its result (spec 30_encoding.md R53). -/
theorem exec_rp (i : Instr) (s : State) : ∃ t, exec i s = .next t ∧ t.rp = s.rp + (encode i).length := by
  obtain ⟨u, r, hu, hrp, -, -⟩ := exec_endsRequest i s
  exact ⟨_, hu, by simp [hrp]⟩

/-- A step over a whole request moves `rp` on by the request's length, to the bytes after it. -/
theorem step_rp_of_request {s t : State} {i : Instr} {rest : List Byte} (hf : s.fetch = .request i rest)
    (h : step s = .next t) : t.rp = s.rp + (encode i).length ∧ t.pending = rest := by
  rw [step_of_request hf] at h
  obtain ⟨u, hu, hrp⟩ := exec_rp i s
  obtain ⟨v, hv, hpend, -⟩ := exec_of_pending (State.fetch_eq_request.1 hf).2
  cases hu.symm.trans h
  cases hv.symm.trans h
  exact ⟨hrp, hpend⟩

/-- A step over an illegal op byte moves `rp` on by that one byte (spec 60_exceptions.md R88). -/
theorem step_rp_of_illegalOp {s t : State} {op : Byte} (hf : s.fetch = .illegalOp op) (h : step s = .next t) :
    t.rp = s.rp + 1 := by
  cases (step_of_illegalOp hf).symm.trans h
  rfl

/-- Settles O13: by what ends every request, and what is pending after its bytes. -/
theorem rpOnlyMovesPastTheRequest : Obligations.RpOnlyMovesPastTheRequest :=
  ⟨exec_rp, fun _ _ _ _ => step_rp_of_request, fun _ _ _ => step_rp_of_illegalOp⟩

/-- One request produces its own bytes. -/
theorem requestBytes_request (i : Instr) : requestBytes [.request i] = encode i :=
  List.append_nil _

/-- Settles O49: the expansions as they stand in the table, and the bytes of the two actions. -/
theorem pseudoInstructionsExpandAsTabled : Obligations.PseudoInstructionsExpandAsTabled :=
  ⟨fun _ _ => rfl, fun _ _ => ⟨rfl, rfl⟩, rfl, requestBytes_request⟩

end Sys2Proof.Machine

/-! ## The byte step and the checksum (spec 40_crc.md section 1) -/

namespace Sys2Proof.Machine

/-- The low byte of an exclusive-or is taken bit by bit. -/
theorem lo8_xor (x y : Word) : lo8 (x ^^^ y) = lo8 x ^^^ lo8 y :=
  BitVec.extractLsb'_xor

/-- So is the high byte. -/
theorem hi8_xor (x y : Word) : hi8 (x ^^^ y) = hi8 x ^^^ hi8 y :=
  BitVec.extractLsb'_xor

/-- `c >> 8` is the high byte, zero-extended. -/
theorem ushiftRight_eight_eq_zext16 (c : Word) : c >>> 8 = zext16 (hi8 c) := by
  apply BitVec.eq_of_getLsbD_eq
  intro i hi
  have hlow : c.getLsbD (8 + i) = true → i < 8 := fun h => by
    have := BitVec.lt_of_getLsbD h
    omega
  simpa [zext16, hi8, hi] using hlow

@[simp] theorem lo8_zext16 (b : Byte) : lo8 (zext16 b) = b := by
  rw [lo8_literal, zext16, BitVec.setWidth_setWidth_of_le b (by decide), BitVec.setWidth_eq]

@[simp] theorem hi8_zext16 (b : Byte) : hi8 (zext16 b) = 0 := by
  apply BitVec.eq_of_getLsbD_eq
  intro i hi
  simp [hi8, zext16]

/-- The byte step with its shift and its index written by halves. -/
theorem crcStep_eq_halves (T : CrcTable) (c : Word) (b : Byte) :
    crcStep T c b = zext16 (hi8 c) ^^^ tableEntry T (lo8 c ^^^ b) := by
  rw [crcStep, ushiftRight_eight_eq_zext16, lo8_xor_zext16]

/-- The high half of the byte step comes from the table alone. -/
theorem hi8_crcStep (T : CrcTable) (c : Word) (b : Byte) :
    hi8 (crcStep T c b) = hi8 (tableEntry T (lo8 c ^^^ b)) := by
  simp [crcStep_eq_halves, hi8_xor]

/-- The low half of the byte step is the old high half with the table's low half. -/
theorem lo8_crcStep (T : CrcTable) (c : Word) (b : Byte) :
    lo8 (crcStep T c b) = hi8 c ^^^ lo8 (tableEntry T (lo8 c ^^^ b)) := by
  simp [crcStep_eq_halves, lo8_xor]

/-- Settles O30: the shift is the zero-extended high byte and the index is `lo8 c ^^^ b`, so the halves follow. -/
theorem byteStepByHalves : Obligations.ByteStepByHalves :=
  fun T c b => ⟨by rw [← lo8_literal]; rfl, ushiftRight_eight_eq_zext16 c, lo8_xor_zext16 c b, hi8_crcStep T c b,
    lo8_crcStep T c b⟩

/-- The byte step depends on the byte only through `lo8 c ^^^ b`: the same change in both is not seen. -/
theorem crcStep_xor_both (T : CrcTable) (c : Word) (b x : Byte) :
    crcStep T (c ^^^ zext16 x) (b ^^^ x) = crcStep T c b := by
  have hindex : lo8 c ^^^ x ^^^ (b ^^^ x) = lo8 c ^^^ b := by
    rw [BitVec.xor_comm b x, ← BitVec.xor_assoc, BitVec.xor_assoc (lo8 c), BitVec.xor_self, BitVec.xor_zero]
  simp [crcStep_eq_halves, hi8_xor, lo8_xor, hindex]

/-- The checksum of one byte is the seed's high byte with the byte's own table entry. -/
theorem checksum_singleton (T : CrcTable) (b : Byte) : checksum T [b] = 0x00E3 ^^^ tableEntry T b := by
  have hseed : lo8 crcSeed ^^^ b = b := BitVec.zero_xor
  calc checksum T [b] = crcStep T crcSeed b := rfl
    _ = zext16 (hi8 crcSeed) ^^^ tableEntry T b := by rw [crcStep_eq_halves, hseed]
    _ = 0x00E3 ^^^ tableEntry T b := rfl

/-- The checksum goes on from what was absorbed so far. -/
theorem checksum_append (T : CrcTable) (x y : List Byte) :
    checksum T (x ++ y) = y.foldl (crcStep T) (checksum T x) :=
  List.foldl_append

/-- Settles O31: the checksum on its seed, one byte and an append, and the byte step's index. -/
theorem checksumFactsForEveryTable : Obligations.ChecksumFactsForEveryTable :=
  fun T => ⟨checksum_nil T, checksum_singleton T, checksum_append T, fun c b x => (crcStep_xor_both T c b x).symm⟩

end Sys2Proof.Machine

/-! ## The three operations of the Checksum Engine (spec 40_crc.md section 2) -/

namespace Sys2Proof.Machine

/-- A well-formed request whose bytes are pending is what the step executes. -/
theorem step_of_pending {s : State} {i : Instr} {rest : List Byte} (hwf : i.wellFormed = true)
    (hp : s.pending = encode i ++ rest) : step s = exec i s :=
  step_of_request (State.fetch_eq_request.2 ⟨hwf, hp⟩)

/-- CRCINIT's effect on the state (R58). -/
theorem exec_crcinit (s : State) :
    exec .crcinit s = .next { s with crc := crcSeed, status := 0x00, rp := s.rp + 1 } := rfl

/-- CRCUPD's effect on the state (R59). -/
theorem exec_crcupd (b : Byte) (s : State) :
    exec (.crcupd b) s =
      .next { s with crc := crcStep s.params.crcTable s.crc b, status := 0x00, rp := s.rp + 2 } := rfl

/-- CRC16's effect on the state (R60). -/
theorem exec_crc16 (d : List Byte) (s : State) :
    exec (.crc16 d) s =
      .next { s with crc := checksum s.params.crcTable d, status := 0x00, rp := s.rp + (2 + d.length) } := rfl

/-- Settles O26: the step on the op byte 02 is CRCINIT. -/
theorem crcinitLoadsTheSeed : Obligations.CrcinitLoadsTheSeed :=
  fun s => ⟨exec_crcinit s, fun _ hp => (step_of_pending (i := .crcinit) rfl hp).trans (exec_crcinit s)⟩

/-- Settles O27: D0's update is the byte step, and the step on the bytes 03 b is CRCUPD. -/
theorem crcupdAbsorbsOneByte : Obligations.CrcupdAbsorbsOneByte := by
  intro b s
  rw [crcStep_literal]
  exact ⟨exec_crcupd b s, fun _ hp => (step_of_pending (i := .crcupd b) rfl hp).trans (exec_crcupd b s)⟩

/-- A count byte with as many data bytes behind it is the counted encoding of that data, which fits it
(spec 30_encoding.md R38, R40). -/
theorem encodeCounted_of_count {n : Byte} {d : List Byte} (rest : List Byte) (h : n.toNat = d.length) :
    countFits d = true ∧ n :: (d ++ rest) = encodeCounted d ++ rest := by
  apply encodeCounted_of_readCounted
  rw [readCounted, h]
  exact takeBytes_append d rest

/-- Settles O28: CRC16's checksum is D0's, and the step on the bytes 01 n d is CRC16. -/
theorem crc16ComputesTheChecksum : Obligations.Crc16ComputesTheChecksum := by
  intro d s
  rw [← checksum_literal]
  refine ⟨exec_crc16 d s, fun n rest hn hp => ?_⟩
  obtain ⟨hfit, hbytes⟩ := encodeCounted_of_count rest hn
  have hp : s.pending = encode (.crc16 d) ++ rest := hp.trans (congrArg _ hbytes)
  exact (step_of_pending (i := .crc16 d) hfit hp).trans (exec_crc16 d s)

/-- One CRCUPD per byte folds the byte step over the bytes; `STATUS` stays 0x00. -/
theorem execAll_map_crcupd (d : List Byte) {s : State} (hs : s.status = 0x00) :
    execAll (d.map .crcupd) s =
      .next { s with crc := d.foldl (crcStep s.params.crcTable) s.crc, rp := s.rp + 2 * d.length } := by
  induction d generalizing s with
  | nil => rfl
  | cons b d ih =>
    rw [List.map_cons, execAll_cons _ (exec_crcupd b s), ih rfl]
    have hrp : s.rp + 2 + 2 * d.length = s.rp + 2 * (d.length + 1) := by omega
    simp [hs, hrp]

/-- Settles O29: CRCINIT leaves the seed, from which the CRCUPDs fold the byte step as the checksum does. -/
theorem crc16EqualsInitThenUpdates : Obligations.Crc16EqualsInitThenUpdates := by
  intro d s
  refine ⟨_, _, exec_crc16 d s, (execAll_cons _ (exec_crcinit s)).trans (execAll_map_crcupd d rfl), ?_⟩
  simp [checksum, Nat.add_assoc]

end Sys2Proof.Machine

/-! ## Vectors under the reference table (spec 40_crc.md R62) -/

namespace Sys2Proof.Machine

/-- A transport that takes the next frame gets all of it, and the request ends with OK (spec 42_frame.md R71). -/
theorem State.sendFrame_of_busTakesNext {s : State} {dest len cmd : Byte} {p w : List Byte} {chk : List Nat} {c : Word}
    (size : Nat) (h : s.busTakesNext) (hw : frameWire s.params.crcTable s.params.escCrc dest len cmd p chk = w)
    (hc : frameCrc s.params.crcTable dest len cmd p = c) :
    s.sendFrame dest len cmd p chk size = Literal.sentWhole w c size s := by
  subst hw hc
  have hok (w : List Byte) : s.busAnswer w = .ok := by simp [State.busAnswer, h]
  calc s.sendFrame dest len cmd p chk size
    _ = { Literal.sentWhole (frameWire s.params.crcTable s.params.escCrc dest len cmd p chk)
            (frameCrc s.params.crcTable dest len cmd p) size s with
          status := (s.sendFrame dest len cmd p chk size).status
          tx := (s.sendFrame dest len cmd p chk size).tx } := rfl
    _ = _ := by
      rw [State.sendFrame_status, hok, State.sendFrame_tx_of_busTakesNext dest len cmd p chk size h]
      rfl

/-- The same under the reference table with raw checksum bytes, by the values of the frame and its checksum. -/
theorem State.sendFrame_of_t8408 {s : State} {u : Bool} {dest len cmd : Byte} {p w : List Byte} {chk : List Nat} {c : Word}
    (size : Nat) (hs : s.params = { crcTable := t8408, escUniform := u, escCrc := false }) (hbus : s.busTakesNext)
    (hv : frameWire t8408 false dest len cmd p chk = w ∧ frameCrc t8408 dest len cmd p = c) :
    s.sendFrame dest len cmd p chk size = Literal.sentWhole w c size s :=
  State.sendFrame_of_busTakesNext size hbus (by rw [hs]; exact hv.1) (by rw [hs]; exact hv.2)

/-- Settles O32: the checksums and the frames' bytes are evaluated with the table's entries; the working transport takes
each frame whole. -/
theorem referenceTableVectors : Obligations.ReferenceTableVectors := by
  refine ⟨by decide +kernel, by decide +kernel, by decide +kernel, by decide +kernel, fun s hs hbus => ⟨?_, ?_, ?_, ?_⟩⟩
  · exact congrArg _ (State.sendFrame_of_t8408 5 hs hbus (by decide +kernel))
  · rw [exec, execCfgbrd, hs]
    exact congrArg _ (State.sendFrame_of_t8408 4 hs hbus (by decide +kernel))
  · rw [exec, execSetpwr_accepted (.inl (by decide)), hs]
    exact congrArg _ (State.sendFrame_of_t8408 5 hs hbus (by decide +kernel))
  · rw [exec, execSetpwr_accepted (.inl (by decide)), hs]
    exact congrArg _ (State.sendFrame_of_t8408 5 hs hbus (by decide +kernel))

end Sys2Proof.Machine

/-! ## The classifier and the escape encoder (spec 41_escape.md R63 to R65) -/

namespace Sys2Proof.Machine

/-- The encoder of a sequence works byte by byte (R64). -/
theorem escEncodeAll_append (x y : List Byte) : escEncodeAll (x ++ y) = escEncodeAll x ++ escEncodeAll y :=
  List.flatMap_append

/-- The encoder adds one marker per control code (R64). -/
theorem length_escEncodeAll (x : List Byte) : (escEncodeAll x).length = x.length + x.countP needsEscape := by
  induction x with
  | nil => rfl
  | cons b x ih =>
    rw [escEncodeAll_cons, List.length_append, escEncode_length, ih]
    cases h : needsEscape b with
    | true => simp [h]; omega
    | false => simp [h]; omega

/-- A byte off the list of control codes needs no marker. -/
theorem needsEscape_of_notMem {b : Byte} (h : b ∉ Literal.controlCodes) : needsEscape b = false :=
  (needsEscape_literal b).trans (decide_eq_false h)

/-- A byte on the list of control codes needs a marker. -/
theorem needsEscape_of_mem {b : Byte} (h : b ∈ Literal.controlCodes) : needsEscape b = true :=
  (needsEscape_literal b).trans (decide_eq_true h)

/-- The encoder leaves a sequence without control codes as it is. -/
theorem escEncodeAll_of_plain {x : List Byte} (h : ∀ b ∈ x, b ∉ Literal.controlCodes) : escEncodeAll x = x := by
  induction x with
  | nil => rfl
  | cons b x ih =>
    obtain ⟨hb, hx⟩ := List.forall_mem_cons.1 h
    rw [escEncodeAll_cons, escEncode_of_plain (needsEscape_of_notMem hb), ih hx, List.singleton_append]

/-- The control codes are the bytes whose upper six bits are those of 0xE0 (R63). -/
theorem needsEscape_eq_masked (b : Byte) : needsEscape b = (b &&& 0xFC == 0xE0) := by
  revert b
  decide +kernel

/-- Settles O33: the classifier by its codes and by its mask, and counted over all 256 bytes. -/
theorem fourControlCodesNeedEscape : Obligations.FourControlCodesNeedEscape :=
  ⟨needsEscape_iff, needsEscape_eq_masked, by decide +kernel⟩

/-- Settles O34: the encoder of a byte by the classifier's answer, that of a sequence by concatenation. -/
theorem escapeInsertsOneMarkerPerControlCode : Obligations.EscapeInsertsOneMarkerPerControlCode := by
  refine ⟨fun b hb => escEncode_of_needsEscape (needsEscape_of_mem hb),
    fun b hb => escEncode_of_plain (needsEscape_of_notMem hb), escEncodeAll_append,
    fun b => List.flatMap_singleton .., fun x => ?_⟩
  rw [length_escEncodeAll, List.countP_eq_length_filter, funext needsEscape_literal]

/-- ESCQ's effect on the state (R65). -/
theorem exec_escq (b : Byte) (s : State) :
    exec (.escq b) s = .next { s with escf := needsEscape b, status := 0x00, rp := s.rp + 2 } := rfl

/-- Settles O35: the step on the bytes 04 b is ESCQ. -/
theorem escqWritesTheClassification : Obligations.EscqWritesTheClassification := by
  intro b s
  rw [← needsEscape_literal]
  exact ⟨exec_escq b s, fun _ hp => (step_of_pending (i := .escq b) rfl hp).trans (exec_escq b s)⟩

end Sys2Proof.Machine

/-! ## The two receivers of spec 41_escape.md R67 on wire frames -/

namespace Sys2Proof.Machine

/-- Settles O36: each encoded byte is read as one item, by induction over the payload. -/
theorem escapedPayloadReadsBack : Obligations.EscapedPayloadReadsBack := readItems_escEncodeAll

/-- Settles O46: the payload is checked throughout, and the frame's checksum is D0's. -/
theorem receiverReadsEveryFrameBack : Obligations.ReceiverReadsEveryFrameBack := by
  intro T escCrc dest len cmd p rest
  rw [receive_frameWire T escCrc dest len cmd rest fun i hi => List.mem_range.2 hi, ← checksum_literal]
  rfl

/-- The scan takes an encoded sequence as the sequence. -/
theorem scanToEof_escEncodeAll (x : List Byte) {rest : List Byte} {r : List Byte × List Byte}
    (hr : scanToEof rest = some r) : scanToEof (escEncodeAll x ++ rest) = some (x ++ r.1, r.2) := by
  induction x with
  | nil => exact hr
  | cons b x ih =>
    rw [escEncodeAll_cons, List.append_assoc]
    exact scanToEof_escEncode b ih

/-- What the scan sees of a frame whose payload is checked throughout: all that follows SOF. -/
theorem frameWire_drop_one (T : CrcTable) (escCrc : Bool) (dest len cmd : Byte) {p : List Byte} {chk : List Nat}
    (h : ∀ i < p.length, i ∈ chk) :
    (frameWire T escCrc dest len cmd p chk).drop 1 =
      [dest, len, srcAddr, cmd] ++ escEncodeAll p ++ wireCrc escCrc (frameCrc T dest len cmd p) ++ [eofByte, ackByte] := by
  rw [← wireBody_checked p h]
  rfl

/-- Checksum bytes that are no control codes go out alike at both settings of `ESC_CRC`. -/
theorem wireCrc_eq_escEncodeAll {escCrc : Bool} {c : Word}
    (h : escCrc = true ∨ ∀ b ∈ crcBytes c, b ∉ Literal.controlCodes) : wireCrc escCrc c = escEncodeAll (crcBytes c) := by
  cases escCrc with
  | true => rfl
  | false => exact (escEncodeAll_of_plain (h.resolve_left Bool.false_ne_true)).symm

/-- Settles O48: under its premises all that stands between SOF and the closing EOF is the encoding of the frame's data. -/
theorem scanningReceiverFindsTheEnd : Obligations.ScanningReceiverFindsTheEnd := by
  intro T escCrc dest len cmd p hdest hlen hcmd hcrc
  have hsrc : srcAddr ∉ Literal.controlCodes := by decide
  have hheader : escEncodeAll [dest, len, srcAddr, cmd] = [dest, len, srcAddr, cmd] :=
    escEncodeAll_of_plain (by simp [hdest, hlen, hsrc, hcmd])
  have hend : scanToEof [eofByte, ackByte] = some ([], [ackByte]) := rfl
  rw [frameWire_drop_one T escCrc dest len cmd fun i hi => List.mem_range.2 hi, wireCrc_eq_escEncodeAll hcrc, ← hheader,
    ← escEncodeAll_append, ← escEncodeAll_append, scanToEof_escEncodeAll _ hend, List.append_nil]
  rfl

/-- Settles O51: to read the frame's data the scan needs the marker that a checksum byte was sent without. -/
theorem scanningReceiverFailsOnRawChecksumControlCodes : Obligations.ScanningReceiverFailsOnRawChecksumControlCodes := by
  rintro T dest len cmd p chk hchk ⟨b, hb, hcode⟩ hscan
  have hmarker : 0 < (crcBytes (frameCrc T dest len cmd p)).countP needsEscape :=
    List.countP_pos_iff.2 ⟨b, hb, needsEscape_of_mem hcode⟩
  have hlength := scanToEof_length hscan
  rw [frameWire_drop_one T false dest len cmd hchk] at hlength
  simp only [escEncodeAll_append, length_escEncodeAll, wireCrc, Bool.false_eq_true, if_false, List.length_append,
    List.length_cons, List.length_nil] at hlength
  omega

end Sys2Proof.Machine

/-! ## FRAME (spec 42_frame.md R71) -/

namespace Sys2Proof.Machine

/-- The checksum left by a frame operation is D0's over the logical frame (R69). -/
theorem State.sendFrame_crc_literal (dest len cmd : Byte) (p : List Byte) (chk : List Nat) (size : Nat) (s : State) :
    (s.sendFrame dest len cmd p chk size).crc =
      Literal.crcOf s.params.crcTable ([0xE2, dest, len, 0x87, cmd] ++ p) :=
  checksum_literal s.params.crcTable (frameLogical dest len cmd p)

/-- A frame operation moves `rp` past its request and leaves `ESCF`, `RQ` and the parameters. -/
theorem State.sendFrame_keepsRest (dest len cmd : Byte) (p : List Byte) (chk : List Nat) (size : Nat) (s : State) :
    Literal.keepsRest size s (s.sendFrame dest len cmd p chk size) :=
  ⟨rfl, rfl, rfl, rfl⟩

/-- FRAME sends one frame with every payload byte checked. -/
theorem exec_frame (dest len cmd : Byte) (d : List Byte) (s : State) :
    exec (.frame dest len cmd d) s = .next (s.sendFrame dest len cmd d (frameChk d.length) (5 + d.length)) := rfl

/-- Settles O38: FRAME sends its wire frame by the transport's answer, and the step on the bytes 05 dest len cmd n d is
FRAME. -/
theorem frameBuildsAndTransmits : Obligations.FrameBuildsAndTransmits := by
  intro dest len cmd d s
  have hexec := exec_frame dest len cmd d s
  refine ⟨_, hexec, s.sendFrame_crc_literal .., wrote_of_exec rfl hexec, s.sendFrame_keepsRest .., fun n rest hn hp => ?_⟩
  obtain ⟨hfit, hbytes⟩ := encodeCounted_of_count rest hn
  have hp : s.pending = encode (.frame dest len cmd d) ++ rest :=
    hp.trans (congrArg (0x05 :: dest :: len :: cmd :: ·) hbytes)
  exact (step_of_pending (i := .frame dest len cmd d) hfit hp).trans hexec

end Sys2Proof.Machine

/-! ## CFGBRD and SETPWR (spec 43_commands.md R76, R78) -/

namespace Sys2Proof.Machine

/-- CFGBRD sends one frame with the two profile bytes (R76). -/
theorem exec_cfgbrd (addr p1 p2 : Byte) (s : State) :
    exec (.cfgbrd addr p1 p2) s =
      .next (s.sendFrame addr lenSetBoardConfig cmdSetBoardConfig [p1, p2] (cfgbrdChk s.params.escUniform) 4) := rfl

/-- Settles O39: CFGBRD sends its wire frame by the transport's answer, and the step on the bytes 26 addr p1 p2 is CFGBRD. -/
theorem cfgbrdTransmitsSetBoardConfig : Obligations.CfgbrdTransmitsSetBoardConfig := by
  intro addr p1 p2 s
  have hexec := exec_cfgbrd addr p1 p2 s
  exact ⟨_, hexec, s.sendFrame_crc_literal .., wrote_of_exec rfl hexec, s.sendFrame_keepsRest ..,
    fun _ hp => (step_of_pending (i := .cfgbrd addr p1 p2) rfl hp).trans hexec⟩

/-- A level above 19 is out of range (R77). -/
theorem inRange_eq_false {l : Byte} (h : 19 < l.toNat) : inRange l = false := by
  rw [← Bool.not_eq_true, inRange_iff]
  exact Nat.not_le.2 h

/-- SETPWR with both levels out of range writes `STATUS` and moves `rp`, no more (R78; 60_exceptions.md R86). -/
theorem exec_setpwr_rejected {l1 l2 : Byte} (h1 : 19 < l1.toNat) (h2 : 19 < l2.toNat) (addr hb : Byte) (s : State) :
    exec (.setpwr addr l1 l2 hb) s = .next { s with status := 0x01, rp := s.rp + 5 } :=
  execSetpwr_rejected (inRange_eq_false h1) (inRange_eq_false h2)

/-- SETPWR with a level in range sends one frame with both levels as given and the heartbeat (R78). -/
theorem exec_setpwr_accepted {l1 l2 : Byte} (h : l1.toNat ≤ 19 ∨ l2.toNat ≤ 19) (addr hb : Byte) (s : State) :
    exec (.setpwr addr l1 l2 hb) s =
      .next (s.sendFrame addr lenSetPwrLevels cmdSetPwrLevels [l1, l2, hb] (setpwrChk s.params.escUniform) 5) :=
  execSetpwr_accepted (by simpa only [inRange_iff] using h)

/-- The wire frame of SETPWR with a level in range, as the spec writes it out (R78; 41_escape.md R66). -/
theorem wireOf_setpwr_accepted {l1 l2 : Byte} (h : l1.toNat ≤ 19 ∨ l2.toNat ≤ 19) (P : Params) (addr hb : Byte) :
    Literal.wireOf P (.setpwr addr l1 l2 hb) = some (Literal.wire P addr 0x0B 0x28 [l1, l2, hb]
      ((if P.escUniform then Literal.escaped l1 ++ Literal.escaped l2 else [l1, l2]) ++ Literal.escaped hb)) :=
  if_neg (by omega)

/-- Settles O40: the two levels decide between the rejection and the frame, and the step on the bytes 28 addr l1 l2 hb is
SETPWR. -/
theorem setpwrValidatesThenTransmits : Obligations.SetpwrValidatesThenTransmits := by
  intro addr l1 l2 hb s
  have hstep (rest : List Byte) (hp : s.pending = 0x28 :: addr :: l1 :: l2 :: hb :: rest) :
      step s = exec (.setpwr addr l1 l2 hb) s :=
    step_of_pending (i := .setpwr addr l1 l2 hb) rfl hp
  by_cases h : l1.toNat ≤ 19 ∨ l2.toNat ≤ 19
  · have hexec := exec_setpwr_accepted h addr hb s
    exact ⟨_, hexec, fun hbad => by omega,
      fun _ => ⟨s.sendFrame_crc_literal .., wrote_of_exec (wireOf_setpwr_accepted h ..) hexec, s.sendFrame_keepsRest ..⟩,
      fun rest hp => (hstep rest hp).trans hexec⟩
  · obtain ⟨h1, h2⟩ : 19 < l1.toNat ∧ 19 < l2.toNat := by omega
    have hexec := exec_setpwr_rejected h1 h2 addr hb s
    exact ⟨_, hexec, fun _ => rfl, fun hgood => absurd hgood h, fun rest hp => (hstep rest hp).trans hexec⟩

end Sys2Proof.Machine

/-! ## The result codes and what is kept past them (spec 60_exceptions.md R86, R88, R94) -/

namespace Sys2Proof.Machine

/-- Settles O9: such a byte is rejected by the decoder, and `rp` one further leaves the bytes behind it. -/
theorem illegalOpByteRaisesIllegalRequest : Obligations.IllegalOpByteRaisesIllegalRequest := by
  intro s op rest hop hp
  have hf : s.fetch = .illegalOp op := by
    rw [State.fetch, hp]
    exact decode_eq_illegalOp.2 hop
  have hrest : s.rq.drop (s.rp + 1) = rest := by
    rw [← List.tail_drop]
    exact congrArg List.tail hp
  exact ⟨step_of_illegalOp hf, hrest⟩

/-- What a request does to `CRC`, `STATUS` and `rp`, and the bytes it appends, do not depend on `ESCF`, `STATUS` and `TX`
(spec 10_state.md R12; 20_memory.md R30). -/
theorem exec_of_earlierResults (i : Instr) (s : State) (e : Bool) (a : Byte) (x : List Byte) :
    ∃ t u y, exec i s = .next t ∧ exec i { s with escf := e, status := a, tx := x } = .next u ∧
      u.crc = t.crc ∧ u.status = t.status ∧ u.rp = t.rp ∧ t.tx = s.tx ++ y ∧ u.tx = x ++ y := by
  cases i with
  | frame | cfgbrd => exact ⟨_, _, _, rfl, rfl, rfl, rfl, rfl, rfl, rfl⟩
  | setpwr addr l1 l2 hb =>
    by_cases h : l1.toNat ≤ 19 ∨ l2.toNat ≤ 19
    · exact ⟨_, _, _, exec_setpwr_accepted h .., exec_setpwr_accepted h .., rfl, rfl, rfl, rfl, rfl⟩
    · obtain ⟨h1, h2⟩ : 19 < l1.toNat ∧ 19 < l2.toNat := by omega
      exact ⟨_, _, [], exec_setpwr_rejected h1 h2 .., exec_setpwr_rejected h1 h2 .., rfl, rfl, rfl,
        (List.append_nil _).symm, (List.append_nil _).symm⟩
  | _ => exact ⟨_, _, [], rfl, rfl, rfl, rfl, rfl, (List.append_nil _).symm, (List.append_nil _).symm⟩

/-- Settles O16: both states fetch the same request, and executing it reads none of the three items. -/
theorem earlierResultsDoNotMatter : Obligations.EarlierResultsDoNotMatter := by
  intro s i rest e a x hf
  have hf' : State.fetch { s with escf := e, status := a, tx := x } = .request i rest := hf
  rw [step_of_request hf, step_of_request hf']
  exact exec_of_earlierResults i s e a x

/-- Transmitting a frame ends with OK or `TransmitFault`, never with `OutOfRange`. -/
theorem status_ne_outOfRange_of_wrote {w : List Byte} {s t : State} (h : Literal.wrote w s t) : t.status ≠ 0x01 := by
  obtain ⟨hok, -⟩ | ⟨k, -, hfault, -⟩ := h
  · simp [hok]
  · simp [hfault]

/-- `OutOfRange` is the result of a rejected SETPWR alone (spec 60_exceptions.md R86). -/
theorem eq_setpwr_of_status_outOfRange {i : Instr} {s t : State} (h : exec i s = .next t) (ht : t.status = 0x01) :
    ∃ addr l1 l2 hb, i = .setpwr addr l1 l2 hb ∧ 19 < l1.toNat ∧ 19 < l2.toNat := by
  cases i with
  | frame | cfgbrd => exact absurd ht (status_ne_outOfRange_of_wrote (wrote_of_exec rfl h))
  | setpwr addr l1 l2 hb =>
    by_cases hl : l1.toNat ≤ 19 ∨ l2.toNat ≤ 19
    · exact absurd ht (status_ne_outOfRange_of_wrote (wrote_of_exec (wireOf_setpwr_accepted hl ..) h))
    · exact ⟨addr, l1, l2, hb, rfl, by omega⟩
  | _ =>
    cases h
    exact absurd ht (show (0x00 : Byte) ≠ 0x01 by decide)

/-- Settles O41: the rejected SETPWR's effect, and that no other request leaves its result code. -/
theorem outOfRangeOnlyFromSetpwrWithTwoBadLevels : Obligations.OutOfRangeOnlyFromSetpwrWithTwoBadLevels :=
  ⟨fun addr _ _ hb s h1 h2 => exec_setpwr_rejected h1 h2 addr hb s, fun _ _ _ => eq_setpwr_of_status_outOfRange⟩

end Sys2Proof.Machine

/-! ## Reset asserted by the host (spec 70_reset_and_hazards.md R102) -/

namespace Sys2Proof.Machine

/-- A reset discards every byte not yet consumed. -/
@[simp] theorem State.pending_hostReset (s : State) : s.hostReset.pending = [] := rfl

/-- The bytes the host appends after a reset are all that is pending. -/
theorem State.pending_hostAppend_hostReset (s : State) (bytes : List Byte) :
    (s.hostReset.hostAppend bytes).pending = bytes := by
  have hrp : s.hostReset.rp ≤ s.hostReset.rq.length := Nat.le_refl 0
  rw [State.pending_hostAppend bytes hrp, s.pending_hostReset, List.nil_append]

/-- Settles O24: the fields are those of a host reset, and a request appended then is the whole of what is pending, so the
next step executes it. -/
theorem hostResetLeavesResetState : Obligations.HostResetLeavesResetState := by
  intro s
  have hready (i : Instr) (hwf : i.wellFormed = true) :
      step (s.hostReset.hostAppend (encode i)) = exec i (s.hostReset.hostAppend (encode i)) :=
    step_of_pending hwf (rest := []) (by rw [s.pending_hostAppend_hostReset, List.append_nil])
  exact ⟨s.hostReset_crc, s.hostReset_escf, s.hostReset_status, s.hostReset_rq, s.hostReset_rp, s.hostReset_tx,
    s.hostReset_params, hready⟩

end Sys2Proof.Machine

/-! ## No request and no step stops the block (spec 60_exceptions.md R93, R94) -/

namespace Sys2Proof.Machine

/-- Every request answers a next state. -/
theorem exists_exec_eq_next (i : Instr) (s : State) : ∃ t, exec i s = .next t := by
  obtain ⟨t, ht, -⟩ := exec_rp i s
  exact ⟨t, ht⟩

/-- Every step answers a next state: the request's, the one after `IllegalRequest`, or the same one. -/
theorem exists_step_eq_next (s : State) : ∃ t, step s = .next t := by
  cases hf : s.fetch with
  | request i rest =>
    rw [step_of_request hf]
    exact exists_exec_eq_next i s
  | illegalOp op => exact ⟨_, step_of_illegalOp hf⟩
  | incomplete => exact ⟨s, step_of_stuck hf⟩
  | noRequest => exact ⟨s, step_of_noRequest hf⟩

/-- Settles O12: requests end with a result code, and what the decoder does itself answers a next state too. -/
theorem nothingStopsTheBlock : Obligations.NothingStopsTheBlock :=
  ⟨exists_exec_eq_next, exists_step_eq_next⟩

/-- A byte read as signed lies in [0, 19] exactly when it does read as unsigned: bytes of 128 and more are negative. -/
theorem toInt_mem_range_iff (l : Byte) : 0 ≤ l.toInt ∧ l.toInt ≤ 19 ↔ l.toNat ≤ 19 := by
  have hl := l.isLt
  rw [BitVec.toInt_eq_toNat_cond]
  split <;> omega

/-- Settles O42: the range check is on the unsigned reading, and the signed one agrees with it up to 127. -/
theorem levelRangeReadsAlikeSigned : Obligations.LevelRangeReadsAlikeSigned :=
  fun l => ⟨inRange_iff l, (inRange_iff l).trans (toInt_mem_range_iff l).symm⟩

end Sys2Proof.Machine

/-! ## The decoder on part of a request (spec 30_encoding.md R43) -/

namespace Sys2Proof

/-- Once there is an op byte, the stream is not used up. -/
theorem decodeOperands_ne_noRequest (o : Op) (bs : List Byte) : decodeOperands o bs ≠ .noRequest := by
  have hr : ∀ f r, requestOr f r ≠ .noRequest := by
    intro f r
    cases r <;> simp [requestOr]
  unfold decodeOperands
  split
  case h_1 | h_5 => exact hr _ _
  all_goals nofun

/-- The decoder finds no request exactly where there is no byte. -/
theorem decode_eq_noRequest {bs : List Byte} : decode bs = .noRequest ↔ bs = [] := by
  cases bs with
  | nil => simp [decode]
  | cons op bs => cases ho : Op.ofByte op <;> simp [decode, ho, decodeOperands_ne_noRequest]

/-- The op byte of a request is in the op map. -/
theorem Op.byte_mem_opBytes (o : Op) : o.byte ∈ Literal.opBytes := by
  cases o <;> decide

/-- A proper part of a request's bytes holds no whole request: read with the missing bytes behind it, it would be another
request than the one it is part of. -/
theorem decode_take_encode_ne_request {i j : Instr} {n : Nat} {rest : List Byte} (hwf : i.wellFormed = true)
    (hn : n < (encode i).length) : decode ((encode i).take n) ≠ .request j rest := by
  intro h
  obtain ⟨hwfj, hbytes⟩ := encode_of_decode h
  have hi : decode (encode i) = .request i [] := by simpa using decode_encode [] hwf
  have hj : decode (encode i) = .request j (rest ++ (encode i).drop n) := by
    rw [← decode_encode _ hwfj, ← List.append_assoc, ← hbytes, List.take_append_drop]
  obtain ⟨-, hrest⟩ := Decoded.request.inj (hi.symm.trans hj)
  have hdrop : (encode i).drop n = [] := (List.append_eq_nil_iff.1 hrest.symm).2
  exact absurd (List.drop_eq_nil_iff.1 hdrop) (by omega)

/-- A proper part of a request's bytes, its op byte at least, is an incomplete request. -/
theorem decode_take_encode {i : Instr} {n : Nat} (hwf : i.wellFormed = true) (h0 : 0 < n) (hn : n < (encode i).length) :
    decode ((encode i).take n) = .incomplete := by
  obtain ⟨m, rfl⟩ : ∃ m, n = m + 1 := ⟨n - 1, by omega⟩
  have hcons : (encode i).take (m + 1) = i.op.byte :: (encodeOperands i).take m := rfl
  cases hd : decode ((encode i).take (m + 1)) with
  | request j rest => exact absurd hd (decode_take_encode_ne_request hwf hn)
  | illegalOp op =>
    rw [hcons] at hd
    obtain ⟨rest, hop⟩ := eq_cons_of_decode_illegalOp hd
    obtain ⟨rfl, -⟩ := List.cons.inj hop
    exact absurd i.op.byte_mem_opBytes (decode_eq_illegalOp.1 hd)
  | incomplete => rfl
  | noRequest => exact absurd (decode_eq_noRequest.1 hd) (List.cons_ne_nil _ _)

end Sys2Proof

/-! ## Waiting (spec 60_exceptions.md R89, 70_reset_and_hazards.md R120) -/

namespace Sys2Proof.Machine

/-- Where the stream is used up there is no request at `rp`. -/
theorem State.fetch_of_finished {s : State} (h : s.finished) : s.fetch = .noRequest :=
  decode_eq_noRequest.2 (List.drop_eq_nil_iff.2 (Nat.le_of_eq h.symm))

/-- A stuck state stays as it is, however long it waits. -/
theorem run_of_stuck {s : State} (h : s.stuck) (k : Nat) : Host.Core.run Sys2Proof.core k s = .next s := by
  induction k with
  | zero => rfl
  | succ k ih => exact (run_succ k (step_of_stuck h)).trans ih

/-- A request whose first bytes are pending is executed once the host has appended the others, whatever it appends behind
them. -/
theorem step_hostAppend_of_pending_take {s : State} {i : Instr} {n : Nat} (hwf : i.wellFormed = true)
    (hle : s.rp ≤ s.rq.length) (hp : s.pending = (encode i).take n) (more : List Byte) :
    step (s.hostAppend ((encode i).drop n ++ more)) = exec i (s.hostAppend ((encode i).drop n ++ more)) :=
  step_of_pending hwf (rest := more) <| by
    rw [State.pending_hostAppend _ hle, hp, ← List.append_assoc, List.take_append_drop]

/-- Settles O10: part of a request is incomplete to the decoder, so the block waits; appended behind it, the missing bytes
make it the request. -/
theorem incompleteRequestWaitsForItsBytes : Obligations.IncompleteRequestWaitsForItsBytes := by
  intro s i n hwf h0 hn hp
  have hstuck : s.stuck := by
    rw [State.stuck, State.fetch, hp]
    exact decode_take_encode hwf h0 hn
  have hunfinished : ¬ s.finished := fun hfin => Decoded.noConfusion (hstuck.symm.trans (State.fetch_of_finished hfin))
  have hne : s.pending ≠ [] := fun hnil => Decoded.noConfusion (hstuck.symm.trans (decode_eq_noRequest.2 hnil))
  have hle : s.rp + s.pending.length ≤ s.rq.length := State.rp_add_length_le (List.append_nil _).symm hne
  exact ⟨hstuck, hunfinished, run_of_stuck hstuck, step_hostAppend_of_pending_take hwf (by omega) hp⟩

/-- A step that changes nothing executed nothing: every request, and an illegal op byte, moves `rp` on. -/
theorem finished_or_stuck_of_step_self {s : State} (hle : s.rp ≤ s.rq.length) (h : step s = .next s) :
    s.finished ∨ s.stuck := by
  obtain ⟨i, rest, hf, -⟩ | ⟨op, hf, -⟩ | ⟨hstuck | hnone, -⟩ := step_cases h
  · obtain ⟨hrp, -⟩ := step_rp_of_request hf h
    have hpos : 0 < (encode i).length := Nat.succ_pos _
    omega
  · have hrp := step_rp_of_illegalOp hf h
    omega
  · exact .inr hstuck
  · exact .inl (State.finished_of_pending_nil (decode_eq_noRequest.1 hnone) hle)

/-- Settles O11: the block waits in these states, and in every other one the step moves `rp`. -/
theorem stepHoldsStillOnlyWhenFinishedOrStuck : Obligations.StepHoldsStillOnlyWhenFinishedOrStuck := by
  rintro s ⟨hle, -⟩
  constructor
  · exact finished_or_stuck_of_step_self hle
  · rintro (hfin | hstuck)
    · exact step_of_noRequest (State.fetch_of_finished hfin)
    · exact step_of_stuck hstuck

end Sys2Proof.Machine

/-! ## A table word placed in the request stream -/

namespace Sys2Proof

/-- A table word is the request that the decoder reads at the front of its bytes. -/
theorem decode_of_decodeTableWord {nbits w : Nat} {i : Instr} (h : decodeTableWord nbits w = some i) :
    ∃ rest, decode (tableBytes nbits w) = .request i rest := by
  unfold decodeTableWord at h
  split at h
  case h_1 j rest hd =>
    cases h
    exact ⟨rest, hd⟩
  all_goals cases h

end Sys2Proof

namespace Sys2Proof.Machine

/-- The part of a stream before `rp`, padded with zeros where the stream is shorter, is `rp` bytes long. -/
theorem length_take_append_replicate (rp : Nat) (rq : List Byte) :
    ((rq ++ List.replicate (rp - rq.length) 0).take rp).length = rp := by
  simp only [List.length_take, List.length_append, List.length_replicate]
  omega

/-- From `rp` on stand the bytes written, then what is left of the stream behind them. -/
theorem drop_overwriteAt (rp : Nat) (bytes rq : List Byte) :
    (overwriteAt rp bytes rq).drop rp = bytes ++ rq.drop (rp + bytes.length) := by
  rw [overwriteAt, List.append_assoc]
  exact List.drop_left' (length_take_append_replicate rp rq)

/-- The bytes of the stream before `rp` stay. -/
theorem getElem?_overwriteAt {rp a : Nat} {rq : List Byte} (bytes : List Byte) (hrp : a < rp) (hrq : a < rq.length) :
    (overwriteAt rp bytes rq)[a]? = rq[a]? := by
  have hlen := length_take_append_replicate rp rq
  rw [overwriteAt, List.append_assoc, List.getElem?_append_left (by omega), List.getElem?_take_of_lt hrp,
    List.getElem?_append_left hrq]

/-- The request of a placed table word is pending, in any state. -/
theorem State.pending_withFetchWord {nbits w : Nat} {i : Instr} (s : State) (h : decodeTableWord nbits w = some i) :
    ∃ rest, i.wellFormed = true ∧ (s.withFetchWord nbits w).pending = encode i ++ rest := by
  obtain ⟨rest, hd⟩ := decode_of_decodeTableWord h
  obtain ⟨hwf, hbytes⟩ := encode_of_decode hd
  have hpend : (s.withFetchWord nbits w).pending = tableBytes nbits w ++ _ := drop_overwriteAt ..
  exact ⟨_, hwf, by rw [hpend, hbytes, List.append_assoc]⟩

/-- Settles O8: the placed bytes are pending and begin with the request's own, and the stream before them is as it was. -/
theorem placedWordIsRunNext : Obligations.PlacedWordIsRunNext := by
  intro s nbits w i h
  obtain ⟨rest, hwf, hp⟩ := s.pending_withFetchWord h
  exact ⟨step_of_pending hwf hp, rfl, fun a => getElem?_overwriteAt (tableBytes nbits w)⟩

end Sys2Proof.Machine

/-! ## The transport's answer (spec 20_memory.md R25) -/

namespace Sys2Proof.Machine

/-- `BusWrite` returns a fault only within the bytes it was given. -/
theorem State.lt_length_of_busAnswer {s : State} {w : List Byte} {k : Nat} (h : s.busAnswer w = .fault k) :
    k < w.length :=
  (boundAnswer_eq_fault.1 h).2

/-- The answer fixed next decides a `BusWrite`, where it stops within the bytes given. -/
theorem State.busAnswer_of_txScript {s : State} {w : List Byte} {k : Nat} {script : List TxAnswer}
    (h : s.txScript = .fault k :: script) (hk : k < w.length) : s.busAnswer w = .fault k := by
  rw [State.busAnswer, State.oracleAnswer, h]
  exact boundAnswer_fault hk

/-- Settles O37: the bytes sent by the answer, the bound on a fault, and a fixed answer for each case. -/
theorem busWriteAppendsAllOrAProperPrefix : Obligations.BusWriteAppendsAllOrAProperPrefix := by
  intro w s
  refine ⟨fun hok => ?_, fun k hfault => ⟨State.lt_length_of_busAnswer hfault, ?_⟩, ⟨[.ok], rfl⟩,
    fun k hk => ⟨[.fault k], boundAnswer_fault hk⟩, rfl, rfl, rfl, rfl, rfl, rfl⟩
  · rw [State.busWrite_tx, hok, bytesSent]
  · rw [State.busWrite_tx, hfault, bytesSent]

end Sys2Proof.Machine

/-! ## Frame operations on a working and on a faulty transport (spec 60_exceptions.md R87) -/

namespace Sys2Proof.Machine

/-- A transport that takes the next frame gets the whole frame as the spec writes it out. -/
theorem State.sendFrame_of_busTakesNext_literal {s : State} {chk : List Nat} {p body : List Byte} (dest len cmd : Byte)
    (size : Nat) (h : s.busTakesNext) (hbody : wireBody chk p = body) :
    s.sendFrame dest len cmd p chk size =
      Literal.sentWhole (Literal.wire s.params dest len cmd p body)
        (Literal.crcOf s.params.crcTable ([0xE2, dest, len, 0x87, cmd] ++ p)) size s := by
  subst hbody
  exact State.sendFrame_of_busTakesNext size h (frameWire_literal ..) (checksum_literal ..)

/-- Settles O43: each of the three sends its own wire frame, which the transport takes. -/
theorem frameOperationsCompleteOnAWorkingBus : Obligations.FrameOperationsCompleteOnAWorkingBus := by
  intro s hbus
  refine ⟨fun dest len cmd d => ?_, fun addr p1 p2 => ?_, fun addr l1 l2 hb hl => ?_⟩
  · have hbody := (wireBody_frameChk d).trans (escEncodeAll_literal d)
    rw [exec_frame, State.sendFrame_of_busTakesNext_literal dest len cmd _ hbus hbody]
  · have hbody := wireBody_cfgbrdChk s.params.escUniform p1 p2
    rw [exec_cfgbrd, State.sendFrame_of_busTakesNext_literal addr _ _ _ hbus hbody]
    rfl
  · have hbody := wireBody_setpwrChk s.params.escUniform l1 l2 hb
    rw [exec_setpwr_accepted hl, State.sendFrame_of_busTakesNext_literal addr _ _ _ hbus hbody]
    rfl

/-- A request with a wire frame ends with the code of the transport's answer, and what that answer let out is at the end of
`TX` (spec 42_frame.md R71). -/
theorem sent_of_exec {i : Instr} {w : List Byte} {s t : State} (hw : Literal.wireOf s.params i = some w)
    (h : exec i s = .next t) :
    t.status = (busCode (s.busAnswer w)).code ∧ t.tx = s.tx ++ bytesSent w (s.busAnswer w) := by
  obtain ⟨dest, len, cmd, p, chk, rfl, hsend⟩ := exec_of_wireOf hw
  cases (hsend s rfl).symm.trans h
  exact ⟨State.sendFrame_status .., State.sendFrame_tx ..⟩

/-- Where the transport takes it, the whole frame is out, with OK. -/
theorem sent_of_busAnswer_ok {i : Instr} {w : List Byte} {s t : State} (hw : Literal.wireOf s.params i = some w)
    (h : exec i s = .next t) (hok : s.busAnswer w = .ok) : t.status = 0x00 ∧ t.tx = s.tx ++ w := by
  obtain ⟨hstatus, htx⟩ := sent_of_exec hw h
  rw [hok] at hstatus htx
  exact ⟨hstatus, htx⟩

/-- Where it stops after `k` bytes, those are out, with `TransmitFault`. -/
theorem sent_of_busAnswer_fault {i : Instr} {w : List Byte} {s t : State} {k : Nat}
    (hw : Literal.wireOf s.params i = some w) (h : exec i s = .next t) (hfault : s.busAnswer w = .fault k) :
    t.status = 0x02 ∧ t.tx = s.tx ++ w.take k := by
  obtain ⟨hstatus, htx⟩ := sent_of_exec hw h
  rw [hfault] at hstatus htx
  exact ⟨hstatus, htx⟩

/-- With the answer OK in place of the next one, sending a frame differs in `STATUS` and in `TX` only. -/
theorem State.sendFrame_with_ok (s : State) (dest len cmd : Byte) (p : List Byte) (chk : List Nat) (size : Nat) :
    State.sendFrame dest len cmd p chk size { s with txScript := .ok :: s.txScript.tail } =
      { s.sendFrame dest len cmd p chk size with
        tx := s.tx ++ frameWire s.params.crcTable s.params.escCrc dest len cmd p chk
        status := 0x00 } :=
  State.sendFrame_of_busTakesNext size rfl rfl rfl

/-- Settles O44: the fixed answer stops the frame after `k` bytes, and the answer OK in its place changes only what the
transport's answer decides. -/
theorem transmitFaultLeavesTheFirstBytes : Obligations.TransmitFaultLeavesTheFirstBytes := by
  intro s i w k script hw hscript hk
  obtain ⟨t, ht⟩ := exists_exec_eq_next i s
  obtain ⟨hstatus, htx⟩ := sent_of_busAnswer_fault hw ht (State.busAnswer_of_txScript hscript hk)
  obtain ⟨dest, len, cmd, p, chk, rfl, hsend⟩ := exec_of_wireOf hw
  cases (hsend s rfl).symm.trans ht
  obtain rfl : script = s.txScript.tail := by rw [hscript, List.tail_cons]
  exact ⟨_, ht, htx, hstatus, rfl, rfl, rfl, rfl, rfl, rfl,
    (hsend { s with txScript := .ok :: s.txScript.tail } rfl).trans (congrArg _ (s.sendFrame_with_ok ..))⟩

end Sys2Proof.Machine

/-! ## Which requests transmit (spec 10_state.md R22) -/

namespace Sys2Proof

/-- The requests that transmit are those with a wire frame. -/
theorem Instr.transmits_iff (P : Params) (i : Instr) : i.transmits ↔ ∃ w, Literal.wireOf P i = some w := by
  cases i with
  | setpwr addr l1 l2 hb =>
    by_cases h : l1.toNat ≤ 19 ∨ l2.toNat ≤ 19
    · exact ⟨fun _ => ⟨_, Machine.wireOf_setpwr_accepted h P addr hb⟩, fun _ => h⟩
    · have hbad : 19 < l1.toNat ∧ 19 < l2.toNat := by omega
      simp [Instr.transmits, Literal.wireOf, hbad, h]
  | _ => simp [Instr.transmits, Literal.wireOf]

/-- A request that does not transmit has no wire frame. -/
theorem Instr.wireOf_eq_none {i : Instr} (P : Params) (h : ¬ i.transmits) : Literal.wireOf P i = none := by
  cases hw : Literal.wireOf P i with
  | none => rfl
  | some w => exact absurd ((i.transmits_iff P).2 ⟨w, hw⟩) h

end Sys2Proof

/-! ## The result code of a request (spec 60_exceptions.md R91) -/

namespace Sys2Proof.Machine

/-- A rejected request writes `STATUS` and moves `rp`, no more. -/
theorem exec_of_rejected {i : Instr} (h : i.rejected) (s : State) :
    exec i s = .next { s with status := 0x01, rp := s.rp + 5 } := by
  cases i with
  | setpwr addr l1 l2 hb => exact exec_setpwr_rejected h.1 h.2 addr hb s
  | _ => exact h.elim

/-- A request that is neither rejected nor transmits ends with OK and sends nothing. -/
theorem exec_of_not_transmits {i : Instr} {s t : State} (hr : ¬ i.rejected) (ht : ¬ i.transmits)
    (h : exec i s = .next t) : t.status = 0x00 ∧ t.tx = s.tx := by
  refine ⟨?_, tx_of_exec_of_wireOf_none (Instr.wireOf_eq_none s.params ht) h⟩
  cases i with
  | frame | cfgbrd => exact absurd trivial ht
  | setpwr addr l1 l2 hb =>
    simp only [Instr.rejected, Instr.transmits] at hr ht
    omega
  | _ =>
    cases h
    rfl

/-- Settles O14: the decoder's own result, the rejection before a frame is built, and the transport's answer to the
request's frame, each on its own requests. -/
theorem resultCodesInFixedPriority : Obligations.ResultCodesInFixedPriority := by
  refine ⟨fun s t op hf h => ?_, fun s t i rest hf h => ?_⟩
  · cases (step_of_illegalOp hf).symm.trans h
    exact ⟨rfl, rfl, rfl⟩
  · rw [step_of_request hf] at h
    refine ⟨fun hr => ?_, fun ht => ?_, fun hr ht => exec_of_not_transmits hr ht h⟩
    · cases (exec_of_rejected hr s).symm.trans h
      exact ⟨rfl, rfl, rfl⟩
    · obtain ⟨w, hw⟩ := (i.transmits_iff s.params).1 ht
      exact ⟨w, hw, sent_of_busAnswer_ok hw h,
        fun k hk => ⟨State.lt_length_of_busAnswer hk, sent_of_busAnswer_fault hw h hk⟩⟩

/-- Transmitting a frame ends with OK or `TransmitFault`. -/
theorem status_of_wrote {w : List Byte} {s t : State} (h : Literal.wrote w s t) : t.status = 0x00 ∨ t.status = 0x02 := by
  obtain ⟨hok, -⟩ | ⟨k, -, hfault, -⟩ := h
  · exact .inl hok
  · exact .inr hfault

/-- Before its pause, a host issues the one request. -/
theorem request_mem_thenPause {i j : Instr} : .request i ∈ thenPause j ↔ i = j := by
  simp [thenPause]

/-- The start-up sequences consist of CFGBRD requests and of SETPWR requests with both levels 0 (spec
70_reset_and_hazards.md R107, R108). -/
theorem transmits_of_mem_startUp {p : Profiles} {hb : Byte} {i : Instr}
    (h : .request i ∈ init4 p hb ++ init5 p hb) : i.transmits := by
  simp only [init4, init5, List.mem_append, request_mem_thenPause] at h
  obtain (((rfl | rfl) | rfl) | rfl) | ((((rfl | rfl) | rfl) | rfl) | rfl) | rfl := h <;>
    simp [zeroPwr, Instr.transmits]

/-- Settles O50: every request of the two sequences transmits, and the transport's answer is all that can go wrong. -/
theorem startUpRequestsAreNeverOutOfRange : Obligations.StartUpRequestsAreNeverOutOfRange := by
  intro p hb i s t hi h
  obtain ⟨w, hw⟩ := (i.transmits_iff s.params).1 (transmits_of_mem_startUp hi)
  exact status_of_wrote (wrote_of_exec hw h)

end Sys2Proof.Machine

/-! ## What each operation writes and reads (spec 10_state.md R22) -/

namespace Sys2Proof.Machine

/-- SETPWR sends its frame or is rejected. -/
theorem exec_setpwr_cases {addr l1 l2 hb : Byte} {s t : State} (h : exec (.setpwr addr l1 l2 hb) s = .next t) :
    ((l1.toNat ≤ 19 ∨ l2.toNat ≤ 19) ∧ t = s.sendFrame addr lenSetPwrLevels cmdSetPwrLevels [l1, l2, hb]
      (setpwrChk s.params.escUniform) 5) ∨
    ((19 < l1.toNat ∧ 19 < l2.toNat) ∧ t = { s with status := 0x01, rp := s.rp + 5 }) := by
  by_cases hl : l1.toNat ≤ 19 ∨ l2.toNat ≤ 19
  · cases (exec_setpwr_accepted hl addr hb s).symm.trans h
    exact .inl ⟨hl, rfl⟩
  · obtain ⟨h1, h2⟩ : 19 < l1.toNat ∧ 19 < l2.toNat := by omega
    cases (exec_setpwr_rejected h1 h2 addr hb s).symm.trans h
    exact .inr ⟨⟨h1, h2⟩, rfl⟩

/-- `CRC` stays where the operation does not write it. -/
theorem exec_keeps_crc {i : Instr} {s t : State} (h : exec i s = .next t) (hi : ¬ i.writesCrc) : t.crc = s.crc := by
  cases i with
  | escq b =>
    cases h
    rfl
  | setpwr addr l1 l2 hb =>
    obtain ⟨hl, -⟩ | ⟨-, rfl⟩ := exec_setpwr_cases h
    · exact absurd hl hi
    · rfl
  | _ => exact absurd trivial hi

/-- `ESCF` is written by ESCQ alone. -/
theorem exec_keeps_escf {i : Instr} {s t : State} (h : exec i s = .next t) (hi : ∀ b, i ≠ .escq b) : t.escf = s.escf := by
  cases i with
  | escq b => exact absurd rfl (hi b)
  | setpwr addr l1 l2 hb => obtain ⟨-, rfl⟩ | ⟨-, rfl⟩ := exec_setpwr_cases h <;> rfl
  | _ =>
    cases h
    rfl

/-- No request changes `RQ`. -/
theorem exec_keeps_rq {i : Instr} {s t : State} (h : exec i s = .next t) : t.rq = s.rq := by
  obtain ⟨u, r, hu, -, hrq, -⟩ := exec_endsRequest i s
  cases hu.symm.trans h
  exact hrq

/-- `TX` only grows. -/
theorem tx_prefix_of_exec {i : Instr} {s t : State} (h : exec i s = .next t) : s.tx <+: t.tx := by
  cases hw : Literal.wireOf s.params i with
  | none => rw [tx_of_exec_of_wireOf_none hw h]
  | some w =>
    rw [(sent_of_exec hw h).2]
    exact List.prefix_append ..

/-- `CRC` is read by CRCUPD alone: with another value of it, every other operation writes the same or leaves that value. -/
theorem exec_of_crc {i : Instr} {s t : State} (h : exec i s = .next t) (hi : ∀ b, i ≠ .crcupd b) (c : Word) :
    ∃ u, exec i { s with crc := c } = .next u ∧ (i.writesCrc → u = t) ∧ (¬ i.writesCrc → u = { t with crc := c }) := by
  cases i with
  | crcupd b => exact absurd rfl (hi b)
  | escq b =>
    cases h
    exact ⟨_, rfl, False.elim, fun _ => rfl⟩
  | setpwr addr l1 l2 hb =>
    obtain ⟨hl, rfl⟩ | ⟨⟨h1, h2⟩, rfl⟩ := exec_setpwr_cases h
    · exact ⟨_, exec_setpwr_accepted hl .., fun _ => rfl, fun hn => absurd hl hn⟩
    · exact ⟨_, exec_setpwr_rejected h1 h2 .., fun (hl : l1.toNat ≤ 19 ∨ l2.toNat ≤ 19) => by omega, fun _ => rfl⟩
  | _ =>
    cases h
    exact ⟨_, rfl, fun _ => rfl, fun hn => absurd trivial hn⟩

/-- `ESCF` is read by no operation. -/
theorem exec_of_escf {i : Instr} {s t : State} (h : exec i s = .next t) (e : Bool) :
    ∃ u, exec i { s with escf := e } = .next u ∧
      (∀ b, i = .escq b → u = t) ∧ ((∀ b, i ≠ .escq b) → u = { t with escf := e }) := by
  cases i with
  | escq b =>
    cases h
    exact ⟨_, rfl, fun _ _ => rfl, fun hn => absurd rfl (hn b)⟩
  | setpwr addr l1 l2 hb =>
    obtain ⟨hl, rfl⟩ | ⟨⟨h1, h2⟩, rfl⟩ := exec_setpwr_cases h
    · exact ⟨_, exec_setpwr_accepted hl .., nofun, fun _ => rfl⟩
    · exact ⟨_, exec_setpwr_rejected h1 h2 .., nofun, fun _ => rfl⟩
  | _ =>
    cases h
    exact ⟨_, rfl, nofun, fun _ => rfl⟩

/-- `STATUS` is read by no operation, and every one writes it. -/
theorem exec_of_status {i : Instr} {s t : State} (h : exec i s = .next t) (a : Byte) :
    exec i { s with status := a } = .next t := by
  cases i with
  | setpwr addr l1 l2 hb =>
    obtain ⟨hl, rfl⟩ | ⟨⟨h1, h2⟩, rfl⟩ := exec_setpwr_cases h
    · exact exec_setpwr_accepted hl ..
    · exact exec_setpwr_rejected h1 h2 ..
  | _ => exact h

/-- Settles O15: the table's columns one by one. -/
theorem writeAndReadSetsAsTabled : Obligations.WriteAndReadSetsAsTabled := by
  refine ⟨fun i s t h => ?_, fun s t op hf h => ?_⟩
  · exact ⟨exec_keeps_crc h, exec_keeps_escf h,
      fun hi => tx_of_exec_of_wireOf_none (Instr.wireOf_eq_none s.params hi) h, tx_prefix_of_exec h, exec_keeps_rq h,
      exec_keeps_params h, fun c hi => exec_of_crc h hi c, exec_of_escf h, exec_of_status h⟩
  · cases (step_of_illegalOp hf).symm.trans h
    rfl

end Sys2Proof.Machine

/-! ## What the environment does (spec 70_reset_and_hazards.md R103) -/

namespace Sys2Proof.Machine

/-- A reset inside a frame leaves the reset state, but for the oracle's counter. -/
theorem State.resetInFrame_snd (k : Nat) (s : State) :
    ∃ n, (s.resetInFrame k).2 = { s.hostReset with busWrites := n } := by
  obtain ⟨t, ht⟩ := exists_step_eq_next (s.cutAfter k)
  exact ⟨t.busWrites, by rw [State.resetInFrame_of_step ht]⟩

/-- The state after a reset is a good one. -/
theorem State.inv_hostReset (s : State) : s.hostReset.Inv :=
  resetIsAGoodState.1

/-- An environment event keeps `State.Inv`: the stream only grows, unless it is discarded with `rp` back at its start. -/
theorem State.inv_afterEvent {s : State} (e : EnvEvent) (h : s.Inv) : (s.afterEvent e).Inv := by
  cases e with
  | append bytes =>
    obtain ⟨hle, hstatus⟩ := h
    refine ⟨?_, hstatus⟩
    simp only [State.afterEvent, State.hostAppend_rp, State.hostAppend_rq, List.length_append]
    omega
  | reset => exact s.inv_hostReset
  | answer a => exact h
  | resetInFrame k =>
    obtain ⟨n, hn⟩ := s.resetInFrame_snd k
    rw [State.afterEvent, hn]
    exact s.inv_hostReset

/-- An environment event keeps `State.TxIsFrames`: it leaves `TX` as it is or empty. -/
theorem State.txIsFrames_afterEvent {s : State} (e : EnvEvent) (h : s.TxIsFrames) : (s.afterEvent e).TxIsFrames := by
  cases e with
  | append bytes => exact h
  | reset => exact State.txIsFrames_of_tx_nil s.hostReset_tx
  | answer a => exact h
  | resetInFrame k =>
    obtain ⟨n, hn⟩ := s.resetInFrame_snd k
    rw [State.afterEvent, hn]
    exact State.txIsFrames_of_tx_nil rfl

/-- Settles O22: event by event, a reset inside a frame by the reset state it ends in. -/
theorem environmentKeepsTheInvariants : Obligations.EnvironmentKeepsTheInvariants :=
  fun _ e => ⟨State.inv_afterEvent e, State.txIsFrames_afterEvent e⟩

/-- A request with a wire frame calls `BusWrite` once. -/
theorem busWrites_of_exec_of_wireOf {i : Instr} {w : List Byte} {s t : State} (hw : Literal.wireOf s.params i = some w)
    (h : exec i s = .next t) : t.busWrites = s.busWrites + 1 := by
  obtain ⟨dest, len, cmd, p, chk, -, hsend⟩ := exec_of_wireOf hw
  cases (hsend s rfl).symm.trans h
  exact State.sendFrame_busWrites ..

/-- A step without a wire frame to send calls no `BusWrite`. -/
theorem step_keeps_tx_and_busWrites {s t : State}
    (hnone : ∀ i rest, s.fetch = .request i rest → Literal.wireOf s.params i = none) (h : step s = .next t) :
    t.tx = s.tx ∧ t.busWrites = s.busWrites := by
  obtain ⟨i, rest, hf, hexec⟩ | ⟨op, -, rfl⟩ | ⟨-, rfl⟩ := step_cases h
  · obtain ⟨u, hu, htx, -, -, hbusWrites⟩ := exec_of_wireOf_none (hnone i rest hf)
    cases hu.symm.trans hexec
    exact ⟨htx, hbusWrites⟩
  · exact ⟨rfl, rfl⟩
  · exact ⟨rfl, rfl⟩

/-- Settles O25: the cut-off is the transport's answer to the frame, so the step before the reset sends its first `k` bytes;
without a frame the cut-off is not seen. -/
theorem resetInsideAFrameLeavesAFragment : Obligations.ResetInsideAFrameLeavesAFragment := by
  refine ⟨fun s i rest w k hf hw hk => ?_, fun s k hnone => ?_⟩
  · obtain ⟨t, hexec⟩ := exists_exec_eq_next i (s.cutAfter k)
    have hstep : step (s.cutAfter k) = .next t := (step_of_request ((s.fetch_cutAfter k).trans hf)).trans hexec
    have hw : Literal.wireOf (s.cutAfter k).params i = some w := hw
    obtain ⟨-, htx⟩ := sent_of_busAnswer_fault hw hexec (State.busAnswer_cutAfter hk s)
    rw [State.resetInFrame_of_step hstep, htx, busWrites_of_exec_of_wireOf hw hexec]
    rfl
  · obtain ⟨t, hstep⟩ := exists_step_eq_next (s.cutAfter k)
    obtain ⟨htx, hbusWrites⟩ := step_keeps_tx_and_busWrites (s := s.cutAfter k) hnone hstep
    rw [State.resetInFrame_of_step hstep, htx, hbusWrites]
    rfl

end Sys2Proof.Machine

/-! ## The length of the wire frame (spec 42_frame.md R72) -/

namespace Sys2Proof.Machine

/-- Whether a payload byte, with its index, is submitted to the escape check and gets a marker. -/
def isMarked (chk : List Nat) (x : Byte × Nat) : Bool := decide (x.2 ∈ chk) && needsEscape x.1

/-- The number `k` of payload bytes that get a marker. -/
def markers (chk : List Nat) (p : List Byte) : Nat := (p.zipIdx.filter (isMarked chk)).length

/-- A payload byte goes out as one byte, or two where it gets a marker. -/
theorem length_wireBody_byte (chk : List Nat) (x : Byte × Nat) :
    (if x.2 ∈ chk then escEncode x.1 else [x.1]).length = 1 + (isMarked chk x).toNat := by
  by_cases h : x.2 ∈ chk
  · simp [isMarked, h, escEncode_length]
  · simp [isMarked, h]

/-- The payload on the wire is longer by its markers. -/
theorem length_wireBody (chk : List Nat) (p : List Byte) : (wireBody chk p).length = p.length + markers chk p := by
  have hpairs (l : List (Byte × Nat)) :
      (l.flatMap fun x => if x.2 ∈ chk then escEncode x.1 else [x.1]).length =
        l.length + (l.filter (isMarked chk)).length := by
    induction l with
    | nil => rfl
    | cons x l ih =>
      rw [List.flatMap_cons, List.length_append, length_wireBody_byte, ih]
      cases h : isMarked chk x with
      | true => simp [h]; omega
      | false => simp [h]; omega
  rw [wireBody, hpairs, List.length_zipIdx, markers]

/-- The two checksum bytes are longer by their markers where `ESC_CRC` is set. -/
theorem length_wireCrc (escCrc : Bool) (c : Word) :
    (wireCrc escCrc c).length = 2 + if escCrc then ((crcBytes c).filter needsEscape).length else 0 := by
  cases escCrc with
  | true => exact (length_escEncodeAll _).trans (by rw [List.countP_eq_length_filter]; rfl)
  | false => rfl

/-- The wire frame: nine bytes, the payload, and the markers of the payload and of the checksum. -/
theorem length_frameWire (T : CrcTable) (escCrc : Bool) (dest len cmd : Byte) (p : List Byte) (chk : List Nat) :
    (frameWire T escCrc dest len cmd p chk).length =
      9 + p.length + markers chk p +
        if escCrc then ((crcBytes (frameCrc T dest len cmd p)).filter needsEscape).length else 0 := by
  simp only [frameWire, List.length_append, List.length_cons, List.length_nil, length_wireBody, length_wireCrc]
  omega

/-- With raw checksum bytes only the payload's markers count. -/
theorem length_frameWire_raw (T : CrcTable) (dest len cmd : Byte) (p : List Byte) (chk : List Nat) :
    (frameWire T false dest len cmd p chk).length = 9 + p.length + markers chk p :=
  length_frameWire T false dest len cmd p chk

/-- No byte gets more than one marker. -/
theorem markers_le_length (chk : List Nat) (p : List Byte) : markers chk p ≤ p.length :=
  (List.length_filter_le _ _).trans_eq List.length_zipIdx

/-- Where every index is checked, the markers are those of the encoder. -/
theorem markers_of_checked {chk : List Nat} {p : List Byte} (h : ∀ i < p.length, i ∈ chk) :
    markers chk p = p.countP needsEscape := by
  have hbody := length_wireBody chk p
  rw [wireBody_checked p h, length_escEncodeAll] at hbody
  omega

/-- A level in range is below the control codes. -/
theorem needsEscape_of_inRange : ∀ l : Byte, inRange l = true → needsEscape l = false := by
  decide +kernel

/-- An accepted SETPWR has a level that gets no marker. -/
theorem markers_setpwrChk_true {l1 l2 : Byte} (hb : Byte) (h : inRange l1 = true ∨ inRange l2 = true) :
    markers (setpwrChk true) [l1, l2, hb] ≤ 2 := by
  have hplain : ∃ b ∈ [l1, l2, hb], needsEscape b = false := by
    obtain h1 | h2 := h
    · exact ⟨l1, by simp, needsEscape_of_inRange l1 h1⟩
    · exact ⟨l2, by simp, needsEscape_of_inRange l2 h2⟩
  rw [markers_of_checked (p := [l1, l2, hb]) mem_setpwrChk_true]
  exact Nat.le_of_lt_succ (List.countP_lt_length_iff.2 hplain)

/-- With `ESC_UNIFORM` false CFGBRD checks no byte. -/
theorem markers_cfgbrdChk_false (p : List Byte) : markers (cfgbrdChk false) p = 0 := by
  simp [markers, isMarked, cfgbrdChk]

/-- With `ESC_UNIFORM` false SETPWR checks the heartbeat alone. -/
theorem markers_setpwrChk_false (l1 l2 hb : Byte) : markers (setpwrChk false) [l1, l2, hb] ≤ 1 := by
  cases h : needsEscape hb <;> simp [markers, isMarked, setpwrChk, List.zipIdx_cons, h]

/-- FRAME's bounds: up to 255 payload bytes, each with or without a marker. -/
theorem length_frameWire_frameChk (T : CrcTable) (dest len cmd : Byte) {p : List Byte} (hp : p.length ≤ 255) :
    9 ≤ (frameWire T false dest len cmd p (frameChk p.length)).length ∧
    (frameWire T false dest len cmd p (frameChk p.length)).length ≤ 519 := by
  have hmarkers := markers_le_length (frameChk p.length) p
  rw [length_frameWire_raw]
  omega

/-- CFGBRD's bounds: two profile bytes. -/
theorem length_frameWire_cfgbrdChk (T : CrcTable) (addr p1 p2 : Byte) :
    11 ≤ (frameWire T false addr 0x0A 0x26 [p1, p2] (cfgbrdChk true)).length ∧
    (frameWire T false addr 0x0A 0x26 [p1, p2] (cfgbrdChk true)).length ≤ 13 ∧
    (frameWire T false addr 0x0A 0x26 [p1, p2] (cfgbrdChk false)).length = 11 := by
  have huniform : markers (cfgbrdChk true) [p1, p2] ≤ 2 := markers_le_length ..
  have hraw := markers_cfgbrdChk_false [p1, p2]
  simp only [length_frameWire_raw, List.length_cons, List.length_nil]
  omega

/-- The bounds of an accepted SETPWR: two levels, one of them in range, and the heartbeat. -/
theorem length_frameWire_setpwrChk (T : CrcTable) {l1 l2 : Byte} (addr hb : Byte)
    (h : inRange l1 = true ∨ inRange l2 = true) :
    12 ≤ (frameWire T false addr 0x0B 0x28 [l1, l2, hb] (setpwrChk true)).length ∧
    (frameWire T false addr 0x0B 0x28 [l1, l2, hb] (setpwrChk true)).length ≤ 14 ∧
    ((frameWire T false addr 0x0B 0x28 [l1, l2, hb] (setpwrChk false)).length = 12 ∨
      (frameWire T false addr 0x0B 0x28 [l1, l2, hb] (setpwrChk false)).length = 13) := by
  have huniform := markers_setpwrChk_true hb h
  have hheartbeat := markers_setpwrChk_false l1 l2 hb
  simp only [length_frameWire_raw, List.length_cons, List.length_nil]
  omega

/-- `ESC_CRC` adds at most a marker for each of the two checksum bytes. -/
theorem length_frameWire_escCrc (T : CrcTable) (dest len cmd : Byte) (p : List Byte) (chk : List Nat) :
    (frameWire T false dest len cmd p chk).length ≤ (frameWire T true dest len cmd p chk).length ∧
    (frameWire T true dest len cmd p chk).length ≤ (frameWire T false dest len cmd p chk).length + 2 := by
  have hcrc : ((crcBytes (frameCrc T dest len cmd p)).filter needsEscape).length ≤ 2 := List.length_filter_le ..
  rw [length_frameWire_raw, length_frameWire, if_pos rfl]
  omega

/-- Settles O45: the formula part by part, and the bounds from how many bytes each operation checks. -/
theorem wireLengthFormulaAndBounds : Obligations.WireLengthFormulaAndBounds :=
  ⟨length_frameWire, fun T dest len cmd _ => length_frameWire_frameChk T dest len cmd, length_frameWire_cfgbrdChk,
    fun T addr _ _ hb => length_frameWire_setpwrChk T addr hb, length_frameWire_escCrc⟩

end Sys2Proof.Machine
